-- ==== Sys2Proof/Word.lean ====
section
/-! DEFINITION. The word types of the block: what the spec treats as bits. -/

namespace Sys2Proof

/-- One byte of a byte window or byte string (`20_memory.md` R56). -/
abbrev Byte := BitVec 8

/-- One 32-bit register or window word (`10_state.md` R21). -/
abbrev Word := BitVec 32

/-- The 64-bit bit counter of the streaming hash (`10_state.md` R41). -/
abbrev Dword := BitVec 64

/-- One 128-bit GCM block read as a number (`43_gcm.md` R118). -/
abbrev Block := BitVec 128

/-- The contents of one bignum register: an unsigned integer below 2^4096 (`10_state.md` R31). -/
abbrev Bignum := BitVec 4096

end Sys2Proof
end

