-- ==== Sys2Proof/Config.lean ====
section
/-! DEFINITION. The parameters of the block (`00_scope.md` R9) and its free values. -/

namespace Sys2Proof.Config

/-- `BN_BITS`: bits of one bignum (R9). -/
abbrev bnBits : Nat := 4096
/-- `BN_BYTES`: bytes of one bignum (R9). -/
abbrev bnBytes : Nat := 512
/-- `DATA_BYTES`: bytes of the DATA buffer (R9). -/
abbrev dataBytes : Nat := 16384
/-- `AAD_BYTES`: bytes of the AAD buffer (R9). -/
abbrev aadBytes : Nat := 64
/-- `HKEY_BYTES`: bytes of the HMAC key buffer (R9). -/
abbrev hkeyBytes : Nat := 128
/-- `PS_BYTES`: bytes of the padding-string buffer (R9). -/
abbrev psBytes : Nat := 512
/-- `AES_RK_WORDS`: round-key words of one slot (R9). -/
abbrev aesRkWords : Nat := 44
/-- `GCM_NONCE_BYTES`: nonce bytes of one slot (R9). -/
abbrev gcmNonceBytes : Nat := 12
/-- `GCM_TAG_BYTES`: tag bytes (R9). -/
abbrev gcmTagBytes : Nat := 16
/-- `SHA_BLOCK_BYTES`: bytes of one SHA-256 block (R9). -/
abbrev shaBlockBytes : Nat := 64
/-- `DIGEST_BYTES`: bytes of one SHA-256 digest (R9). -/
abbrev digestBytes : Nat := 32
/-- `WINDOW_BYTES`: size of the register window (R9). -/
abbrev windowBytes : Nat := 0x8000

/-- Which multiple of the window size CRYPTO_BASE is. OPEN (`00_scope.md` R9, decision D2): nothing is
known of it, so what is proved holds for every base. Log entry 1. -/
opaque cryptoBaseIndex : Nat

/-- `CRYPTO_BASE`: the host address of offset 0, a multiple of the window size (`00_scope.md` R9). -/
def cryptoBase : Nat := windowBytes * cryptoBaseIndex

/-- FREE VALUE: what the `n`-th host read of a busy-protected offset returns (`20_memory.md` R63: "an
unspecified 32-bit value"). Nothing is known of it. Log entry 3. -/
opaque busyRead : Nat → Word

end Sys2Proof.Config
end

