-- ==== Sys2Proof/Syntax.lean ====
section
/-! DEFINITION. The 29 commands (`30_encoding.md` R78), their operand names, and the raw fields of a
command word (R74). -/

namespace Sys2Proof

/-- A bignum register name: the fields RD, RS1, RS2 and RM are plain indices 0..3 and every value is
legal (`30_encoding.md` R76). -/
inductive BnReg where
  | b0 | b1 | b2 | b3
deriving DecidableEq, Repr

/-- An AES key slot name (`30_encoding.md` R76). -/
inductive Slot where
  | s0 | s1
deriving DecidableEq, Repr

/-- The fields of one command word (`30_encoding.md` R74). -/
structure CommandWord where
  /-- OP, bits 7:0. -/
  op : BitVec 8
  /-- RD, bits 9:8. -/
  rd : BitVec 2
  /-- RS1, bits 11:10. -/
  rs1 : BitVec 2
  /-- RS2, bits 13:12. -/
  rs2 : BitVec 2
  /-- RM, bits 15:14. -/
  rm : BitVec 2
  /-- SLOT, bit 16. -/
  slot : BitVec 1
  /-- Bits 31:17, which must be 0. -/
  reserved : BitVec 15
deriving DecidableEq, Repr

/-- The commands, one constructor per row of `30_encoding.md` R78, each carrying the fields its row
marks as read, in the order RD, RS1, RS2, RM, SLOT. -/
inductive Instr where
  /-- NOP, OP 0x00 (`45_control.md` R137). -/
  | nop
  /-- BN_FROMBYTES, OP 0x10 (`40_bignum.md` R86). -/
  | bnFromBytes (rd : BnReg)
  /-- BN_TOBYTES, OP 0x11 (R87). -/
  | bnToBytes (rs1 : BnReg)
  /-- BN_ADD, OP 0x12 (R88). -/
  | bnAdd (rd rs1 rs2 : BnReg)
  /-- BN_SUB, OP 0x13 (R89). -/
  | bnSub (rd rs1 rs2 : BnReg)
  /-- BN_MUL, OP 0x14 (R90). -/
  | bnMul (rd rs1 rs2 : BnReg)
  /-- BN_SHL, OP 0x15 (R91). -/
  | bnShl (rd rs1 : BnReg)
  /-- BN_SHR, OP 0x16 (R92). -/
  | bnShr (rd rs1 : BnReg)
  /-- BN_CMP, OP 0x17 (R93). -/
  | bnCmp (rs1 rs2 : BnReg)
  /-- BN_MOD, OP 0x18 (R97). -/
  | bnMod (rd rs1 rm : BnReg)
  /-- BN_MODMUL, OP 0x19 (R98). -/
  | bnModMul (rd rs1 rs2 rm : BnReg)
  /-- BN_MODEXP, OP 0x1A (R99). -/
  | bnModExp (rd rs1 rs2 rm : BnReg)
  /-- BN_BITLEN, OP 0x1B (R94). -/
  | bnBitLen (rs1 : BnReg)
  /-- BN_BITTEST, OP 0x1C (R95). -/
  | bnBitTest (rs1 : BnReg)
  /-- RSA_SETKEY, OP 0x20 (`41_rsa.md` R100). -/
  | rsaSetKey (rs2 rm : BnReg)
  /-- RSA_ENC, OP 0x21 (R103). -/
  | rsaEnc
  /-- RSA_VERIFY, OP 0x22 (R105). -/
  | rsaVerify
  /-- AES_KEYEXP, OP 0x30 (`42_aes.md` R112). -/
  | aesKeyExp (slot : Slot)
  /-- AES_ENCBLK, OP 0x31 (R113). -/
  | aesEncBlk (slot : Slot)
  /-- AES_DECBLK, OP 0x32 (R114). -/
  | aesDecBlk (slot : Slot)
  /-- AES_CBCENC, OP 0x33 (R115). -/
  | aesCbcEnc (slot : Slot)
  /-- AES_CBCDEC, OP 0x34 (R116). -/
  | aesCbcDec (slot : Slot)
  /-- GCM_ENC, OP 0x35 (`43_gcm.md` R124). -/
  | gcmEnc (slot : Slot)
  /-- GCM_DEC, OP 0x36 (R125). -/
  | gcmDec (slot : Slot)
  /-- SHA_INIT, OP 0x40 (`44_sha.md` R131). -/
  | shaInit
  /-- SHA_UPDATE, OP 0x41 (R132). -/
  | shaUpdate
  /-- SHA_FINAL, OP 0x42 (R133). -/
  | shaFinal
  /-- SHA_ONESHOT, OP 0x43 (R135). -/
  | shaOneShot
  /-- HMAC, OP 0x44 (R136). -/
  | hmac
deriving DecidableEq, Repr

end Sys2Proof
end

