-- ==== Sys2Proof/WellFormed.lean ====
section
/-! DEFINITION. The checks on what the outside hands to the block: command words (`30_encoding.md`
R80) and host accesses (`20_memory.md` R55, R67). The operand types of `Instr` hold legal values only
(R76), so an `Instr` needs no check of its own. -/

namespace Sys2Proof

/-- The 29 assigned opcodes (`30_encoding.md` R78). -/
def assignedOpcodes : List (BitVec 8) :=
  [0x00, 0x10, 0x11, 0x12, 0x13, 0x14, 0x15, 0x16, 0x17, 0x18, 0x19, 0x1A, 0x1B, 0x1C,
   0x20, 0x21, 0x22, 0x30, 0x31, 0x32, 0x33, 0x34, 0x35, 0x36, 0x40, 0x41, 0x42, 0x43, 0x44]

namespace CommandWord

/-- Bits 31:17 are 0 (R74, R80). -/
def reservedClear (c : CommandWord) : Bool := c.reserved == 0

/-- The opcode is one of R78 (R80). -/
def opcodeAssigned (c : CommandWord) : Bool := assignedOpcodes.contains c.op

/-- A legal command word (R80: every word that fails this is illegal). -/
def wellFormed (c : CommandWord) : Bool := c.reservedClear && c.opcodeAssigned

end CommandWord

/-- The widths a host bus can offer (`20_memory.md` R55 names 1, 2 and 8 bytes beside the 4 of R54). -/
inductive AccessWidth where
  | byte | half | word | double
deriving DecidableEq, Repr

/-- The width and host address of one host access. -/
structure AccessShape where
  width : AccessWidth
  /-- A host address; the spec gives the host's address space no width (log entry 8). -/
  addr : Nat
deriving DecidableEq, Repr

namespace AccessShape

/-- The access is 32 bits wide (R54, R55). -/
def wordWide (a : AccessShape) : Bool := a.width == .word

/-- The access lies in the window (R53, R67). -/
def inWindow (a : AccessShape) : Bool :=
  decide (Config.cryptoBase ≤ a.addr) && decide (a.addr < Config.cryptoBase + Config.windowBytes)

/-- The offset of an access from CRYPTO_BASE (R54). -/
def offset (a : AccessShape) : Nat := a.addr - Config.cryptoBase

/-- The offset is a multiple of 4 (R54, R55). -/
def aligned (a : AccessShape) : Bool := a.offset % 4 == 0

/-- An access the block defines (R54). -/
def wellFormed (a : AccessShape) : Bool := a.wordWide && a.inWindow && a.aligned

end AccessShape

end Sys2Proof
end

