-- ==== Sys2Proof/Decode.lean ====
section
/-! DEFINITION. Decoding and encoding command words (`30_encoding.md` R74 to R80). Decoding is total:
every word is a command of R78 or illegal, with the reason by name. -/

namespace Sys2Proof

/-- Why a command word is illegal (R80). -/
inductive DecodeError where
  /-- `c[31:17] ≠ 0`. -/
  | reservedBits
  /-- `c[7:0]` is not an opcode of R78. -/
  | unassignedOpcode
deriving DecidableEq, Repr

/-- A register field names BN0..BN3 by its value (R76). -/
def BnReg.ofField (f : BitVec 2) : BnReg :=
  match f.toNat with
  | 0 => .b0
  | 1 => .b1
  | 2 => .b2
  | _ => .b3

/-- The field value that names a bignum register (R76). -/
def BnReg.toField : BnReg → BitVec 2
  | .b0 => 0
  | .b1 => 1
  | .b2 => 2
  | .b3 => 3

/-- SLOT names key slot 0 or 1 (R76). -/
def Slot.ofField (f : BitVec 1) : Slot := if f = 0 then .s0 else .s1

/-- The field value that names a key slot (R76). -/
def Slot.toField : Slot → BitVec 1
  | .s0 => 0
  | .s1 => 1

/-- Split a command word into its fields (R74). -/
def CommandWord.ofWord (c : Word) : CommandWord where
  op := c.extractLsb' 0 8
  rd := c.extractLsb' 8 2
  rs1 := c.extractLsb' 10 2
  rs2 := c.extractLsb' 12 2
  rm := c.extractLsb' 14 2
  slot := c.extractLsb' 16 1
  reserved := c.extractLsb' 17 15

/-- `word = OP | RD << 8 | RS1 << 10 | RS2 << 12 | RM << 14 | SLOT << 16` (R74), the reserved field above. -/
def CommandWord.toWord (f : CommandWord) : Word :=
  f.op.setWidth 32 ||| f.rd.setWidth 32 <<< 8 ||| f.rs1.setWidth 32 <<< 10 |||
    f.rs2.setWidth 32 <<< 12 ||| f.rm.setWidth 32 <<< 14 ||| f.slot.setWidth 32 <<< 16 |||
    f.reserved.setWidth 32 <<< 17

/-- The command a field split stands for, by its opcode (R78); `none` where the opcode is unassigned.
A field the opcode's row does not mark is not read (R76). -/
def CommandWord.toInstr (f : CommandWord) : Option Instr :=
  let rd := BnReg.ofField f.rd
  let rs1 := BnReg.ofField f.rs1
  let rs2 := BnReg.ofField f.rs2
  let rm := BnReg.ofField f.rm
  let slot := Slot.ofField f.slot
  match f.op.toNat with
  | 0x00 => some .nop
  | 0x10 => some (.bnFromBytes rd)
  | 0x11 => some (.bnToBytes rs1)
  | 0x12 => some (.bnAdd rd rs1 rs2)
  | 0x13 => some (.bnSub rd rs1 rs2)
  | 0x14 => some (.bnMul rd rs1 rs2)
  | 0x15 => some (.bnShl rd rs1)
  | 0x16 => some (.bnShr rd rs1)
  | 0x17 => some (.bnCmp rs1 rs2)
  | 0x18 => some (.bnMod rd rs1 rm)
  | 0x19 => some (.bnModMul rd rs1 rs2 rm)
  | 0x1A => some (.bnModExp rd rs1 rs2 rm)
  | 0x1B => some (.bnBitLen rs1)
  | 0x1C => some (.bnBitTest rs1)
  | 0x20 => some (.rsaSetKey rs2 rm)
  | 0x21 => some .rsaEnc
  | 0x22 => some .rsaVerify
  | 0x30 => some (.aesKeyExp slot)
  | 0x31 => some (.aesEncBlk slot)
  | 0x32 => some (.aesDecBlk slot)
  | 0x33 => some (.aesCbcEnc slot)
  | 0x34 => some (.aesCbcDec slot)
  | 0x35 => some (.gcmEnc slot)
  | 0x36 => some (.gcmDec slot)
  | 0x40 => some .shaInit
  | 0x41 => some .shaUpdate
  | 0x42 => some .shaFinal
  | 0x43 => some .shaOneShot
  | 0x44 => some .hmac
  | _ => none

/-- Decode a command word (R79, R80): the reserved bits first, then the opcode. -/
def decode (c : Word) : Except DecodeError Instr :=
  let f := CommandWord.ofWord c
  if f.reserved ≠ 0 then .error .reservedBits
  else
    match f.toInstr with
    | some i => .ok i
    | none => .error .unassignedOpcode

/-- The instruction the decoder reads from the bits `w` of a row `nbits` wide. The block stores a
command word as the number in CMD (`20_memory.md` R57), so there is no byte order to lay out. -/
def decodeTableWord (nbits w : Nat) : Option Instr :=
  match decode (BitVec.ofNat 32 (w % 2 ^ nbits)) with
  | .ok i => some i
  | .error _ => none

/-- The opcode of a command (R78). -/
def Instr.opcode : Instr → BitVec 8
  | .nop => 0x00
  | .bnFromBytes _ => 0x10
  | .bnToBytes _ => 0x11
  | .bnAdd _ _ _ => 0x12
  | .bnSub _ _ _ => 0x13
  | .bnMul _ _ _ => 0x14
  | .bnShl _ _ => 0x15
  | .bnShr _ _ => 0x16
  | .bnCmp _ _ => 0x17
  | .bnMod _ _ _ => 0x18
  | .bnModMul _ _ _ _ => 0x19
  | .bnModExp _ _ _ _ => 0x1A
  | .bnBitLen _ => 0x1B
  | .bnBitTest _ => 0x1C
  | .rsaSetKey _ _ => 0x20
  | .rsaEnc => 0x21
  | .rsaVerify => 0x22
  | .aesKeyExp _ => 0x30
  | .aesEncBlk _ => 0x31
  | .aesDecBlk _ => 0x32
  | .aesCbcEnc _ => 0x33
  | .aesCbcDec _ => 0x34
  | .gcmEnc _ => 0x35
  | .gcmDec _ => 0x36
  | .shaInit => 0x40
  | .shaUpdate => 0x41
  | .shaFinal => 0x42
  | .shaOneShot => 0x43
  | .hmac => 0x44

/-- The fields of a command's canonical word: a field the command does not read is 0 ("Ignored fields
assemble as 0", R81). -/
def Instr.fields (i : Instr) : CommandWord :=
  let base : CommandWord :=
    { op := i.opcode, rd := 0, rs1 := 0, rs2 := 0, rm := 0, slot := 0, reserved := 0 }
  match i with
  | .nop | .rsaEnc | .rsaVerify | .shaInit | .shaUpdate | .shaFinal | .shaOneShot | .hmac => base
  | .bnFromBytes rd => { base with rd := rd.toField }
  | .bnToBytes rs1 | .bnBitLen rs1 | .bnBitTest rs1 => { base with rs1 := rs1.toField }
  | .bnAdd rd rs1 rs2 | .bnSub rd rs1 rs2 | .bnMul rd rs1 rs2 =>
      { base with rd := rd.toField, rs1 := rs1.toField, rs2 := rs2.toField }
  | .bnShl rd rs1 | .bnShr rd rs1 => { base with rd := rd.toField, rs1 := rs1.toField }
  | .bnCmp rs1 rs2 => { base with rs1 := rs1.toField, rs2 := rs2.toField }
  | .bnMod rd rs1 rm => { base with rd := rd.toField, rs1 := rs1.toField, rm := rm.toField }
  | .bnModMul rd rs1 rs2 rm | .bnModExp rd rs1 rs2 rm =>
      { base with rd := rd.toField, rs1 := rs1.toField, rs2 := rs2.toField, rm := rm.toField }
  | .rsaSetKey rs2 rm => { base with rs2 := rs2.toField, rm := rm.toField }
  | .aesKeyExp s | .aesEncBlk s | .aesDecBlk s | .aesCbcEnc s | .aesCbcDec s | .gcmEnc s | .gcmDec s =>
      { base with slot := s.toField }

/-- The word of a command (R74). -/
def encode (i : Instr) : Word := i.fields.toWord

end Sys2Proof
end

