-- ==== Sys2Proof/Machine/State.lean ====
section
/-! DEFINITION. The machine's state as plain data (`10_state.md` R20), its value after reset (R52), and
the reasons a step can stop. -/

namespace Sys2Proof.Machine

open Sys2Proof

/-- The four bignum registers BN0..BN3 (`10_state.md` R31, R33). -/
structure BnFile where
  b0 : Bignum
  b1 : Bignum
  b2 : Bignum
  b3 : Bignum
deriving DecidableEq, Repr

/-- One AES key slot (`10_state.md` R37, R38). Its 12-byte nonce GCM_IVs lies in the byte windows. -/
structure KeySlot where
  /-- The round-key words `RK[s][0..43]`. -/
  rk : Vector Word Config.aesRkWords
  /-- `KV[s]`: the slot holds an expanded key. -/
  kv : Bool
  /-- `NU[s]`: the slot's nonce was used by GCM_ENC. -/
  nu : Bool
deriving DecidableEq, Repr

/-- The two AES key slots (`10_state.md` R37). -/
structure SlotFile where
  s0 : KeySlot
  s1 : KeySlot
deriving DecidableEq, Repr

/-- Eight SHA-256 state words (`10_state.md` R40); also the working variables a..h of R128. -/
structure Hash8 where
  h0 : Word
  h1 : Word
  h2 : Word
  h3 : Word
  h4 : Word
  h5 : Word
  h6 : Word
  h7 : Word
deriving DecidableEq, Repr

/-- `STATUS.CMP` (`10_state.md` R25): 0 equal, 1 less, 2 greater; 3 never occurs. -/
inductive CmpFlag where
  | equal | less | greater
deriving DecidableEq, Repr

/-- The codes of `STATUS.ERR` (`60_exceptions.md` R143). -/
inductive ErrCode where
  /-- 0x00, the command succeeded. -/
  | ok
  /-- 0x01 E_ILLEGAL. -/
  | illegal
  /-- 0x02 E_RANGE. -/
  | range
  /-- 0x03 E_CAPACITY. -/
  | capacity
  /-- 0x04 E_OVERFLOW. -/
  | overflow
  /-- 0x05 E_UNDERFLOW. -/
  | underflow
  /-- 0x06 E_DIVZERO. -/
  | divZero
  /-- 0x07 E_ALIGN. -/
  | align
  /-- 0x08 E_NOKEY. -/
  | noKey
  /-- 0x09 E_SEQ. -/
  | seq
  /-- 0x0A E_MSGLEN. -/
  | msgLen
  /-- 0x0B E_PADZERO. -/
  | padZero
  /-- 0x0C E_TAG. -/
  | tag
  /-- 0x0D E_NONCE. -/
  | nonce
  /-- 0x0E E_KEY. -/
  | key
deriving DecidableEq, Repr

/-- The bytes of the byte windows, keyed by window offset, in ONE canonical form: offsets strictly
rising and no entry equal to 0, the value an unlisted offset reads as (the spec's reset contents,
`10_state.md` R52; log entry 6). -/
abbrev Memory := List Host.Cell

/-- One access of the host to the block (`20_memory.md` R54, R55). -/
inductive HostAccess where
  /-- `MemRead`. -/
  | read (shape : AccessShape)
  /-- `MemWrite` of a value. -/
  | write (shape : AccessShape) (value : Word)
deriving DecidableEq, Repr

/-- One item of what the environment does with the block: the single sequence of steps of
`20_memory.md` R69, and the reset input of `70_reset_and_hazards.md` R156. -/
inductive Input where
  /-- The host takes a step. -/
  | host (access : HostAccess)
  /-- The engine takes its turn before the next host step (`70_reset_and_hazards.md` R164). -/
  | engine
  /-- The platform asserts the reset input (`70_reset_and_hazards.md` R156). -/
  | hardReset
deriving DecidableEq, Repr

/-- The architectural state (`10_state.md` R20) and, last, three fields of the model's own. -/
structure State where
  /-- CMD: the command word last accepted (R24). -/
  cmd : Word
  /-- STATUS.BUSY: a command is in flight (R25). -/
  busy : Bool
  /-- STATUS.VOK: the last successful RSA_VERIFY matched (R25). -/
  vok : Bool
  /-- STATUS.CMP: the result of the last successful BN_CMP (R25). -/
  cmp : CmpFlag
  /-- STATUS.ERR: the error code of the last completed command (R25). -/
  err : ErrCode
  /-- INT_EN.DONE_EN (R26). -/
  doneEn : Bool
  /-- INT_EN.OVR_EN (R26). -/
  ovrEn : Bool
  /-- INT_STAT.DONE (R27). -/
  intDone : Bool
  /-- INT_STAT.OVR (R27). -/
  intOvr : Bool
  /-- RESULT (R28). -/
  result : Word
  /-- DATA_OFF (R29). -/
  dataOff : Word
  /-- DATA_LEN (R29). -/
  dataLen : Word
  /-- BN_SHAMT (R29). -/
  bnShamt : Word
  /-- AAD_LEN (R29). -/
  aadLen : Word
  /-- HKEY_LEN (R29). -/
  hkeyLen : Word
  /-- BN0..BN3 (R31). -/
  bn : BnFile
  /-- RSA_N (R34). -/
  rsaN : Bignum
  /-- RSA_E (R34). -/
  rsaE : Bignum
  /-- RSA_BITS bits [12:0] (R34). -/
  rsaBits : BitVec 13
  /-- RSA_KLEN bits [9:0] (R34). -/
  rsaKlen : BitVec 10
  /-- RSAKV (R34). -/
  rsaKv : Bool
  /-- The two AES key slots (R37, R38). -/
  slots : SlotFile
  /-- SHA_H0..SHA_H7 (R40). -/
  shaH : Hash8
  /-- SHA_CNT (R41). -/
  shaCnt : Dword
  /-- SHA_CTX.VALID (R42). -/
  shaValid : Bool
  /-- The byte windows AES_KEY, AES_IV, GCM_IV0, GCM_IV1, TAG, DIGEST, SHA_BUF, AAD, HKEY, PSBUF and
  DATA (R35, R36, R38, R39, R43 to R48). -/
  mem : Memory
  /-- MODEL'S OWN: what the environment does next, in order (log entry 2). -/
  inputs : List Input
  /-- MODEL'S OWN: the value the last host read returned (log entry 4). -/
  rdata : Word
  /-- MODEL'S OWN: how many free values the host's reads have drawn (log entry 3). -/
  draws : Nat
deriving DecidableEq, Repr

/-- The block never stops of itself: "Nothing in the block is `stuck`: every command completes, and
every error is a completion with a code" (`93_implementation_defined.md` section 1). So there is no
fault (log entry 10). -/
inductive Fault where
deriving DecidableEq, Repr

/-- The steps the spec gives no meaning. -/
inductive Refusal where
  /-- Raised by no step: every command has its meaning. Safe. -/
  | notModelled (mnemonic : String)
  /-- Raised by a host access of 1, 2 or 8 bytes or at an offset that is not a multiple of 4: "A model
  refuses such an access" (`20_memory.md` R55). Safe. -/
  | undefinedAccess
  /-- Raised by a host access outside the window, which is no access to this block
  (`20_memory.md` R67, `93_implementation_defined.md` item 10). Safe. -/
  | outsideWindow
deriving DecidableEq, Repr

/-- The outcome of a command or a step. -/
abbrev Result := Host.Outcome State Fault Refusal

/-- An empty key slot (R37, R38). -/
def KeySlot.reset : KeySlot where
  rk := Vector.replicate Config.aesRkWords 0
  kv := false
  nu := false

/-- The machine after reset (`10_state.md` R52, `70_reset_and_hazards.md` R156): everything is zero and no
command is in flight. The spec leaves no piece unspecified; the values of the last three fields, the
model's own, are DESIGN CHOICES (log entries 2, 3, 4). -/
def State.reset : State where
  cmd := 0
  busy := false
  vok := false
  cmp := .equal
  err := .ok
  doneEn := false
  ovrEn := false
  intDone := false
  intOvr := false
  result := 0
  dataOff := 0
  dataLen := 0
  bnShamt := 0
  aadLen := 0
  hkeyLen := 0
  bn := { b0 := 0, b1 := 0, b2 := 0, b3 := 0 }
  rsaN := 0
  rsaE := 0
  rsaBits := 0
  rsaKlen := 0
  rsaKv := false
  slots := { s0 := KeySlot.reset, s1 := KeySlot.reset }
  shaH := { h0 := 0, h1 := 0, h2 := 0, h3 := 0, h4 := 0, h5 := 0, h6 := 0, h7 := 0 }
  shaCnt := 0
  shaValid := false
  mem := []
  inputs := []
  rdata := 0
  draws := 0

end Sys2Proof.Machine
end

