-- ==== Sys2Proof/Machine/Bytes.lean ====
section
/-! DEFINITION. Byte strings and numbers (`00_scope.md` R11 to R14). A byte string is a list, first byte first. -/

namespace Sys2Proof.Machine

open Sys2Proof

/-- `from_bytes(s)`: big-endian, first byte most significant (R14). -/
def fromBytes (s : List Byte) : Nat :=
  s.foldl (fun acc b => acc * 256 + b.toNat) 0

/-- `to_bytes(v, L)`: byte `j` is `(v >> 8*(L-1-j)) mod 256` (R14; the spec defines it for `v < 256^L`). -/
def toBytes (v len : Nat) : List Byte :=
  (List.range len).map fun j => BitVec.ofNat 8 (v >>> (8 * (len - 1 - j)))

/-- `bitlength(v)`: the least `n` with `v < 2^n` (R14). -/
def bitLength (v : Nat) : Nat := if v = 0 then 0 else Nat.log2 v + 1

/-- `word_be` of the four bytes at index `i` of `s` (R14). -/
def wordBeAt (s : List Byte) (i : Nat) : Word :=
  s.getD i 0 ++ s.getD (i + 1) 0 ++ s.getD (i + 2) 0 ++ s.getD (i + 3) 0

/-- `bytes_be(w)` (R14). -/
def bytesBe (w : Word) : List Byte :=
  [w.extractLsb' 24 8, w.extractLsb' 16 8, w.extractLsb' 8 8, w.extractLsb' 0 8]

/-- `⊕` of two byte strings (R11), as long as the shorter. -/
def xorBytes (a b : List Byte) : List Byte := List.zipWith (· ^^^ ·) a b

/-- `n` zero bytes: `0^n` (R11). -/
def zeroBytes (n : Nat) : List Byte := List.replicate n 0

/-- The first `n` blocks of 16 bytes of `s`, the last one shorter where `s` ends inside it. -/
def blocks16 : Nat → List Byte → List (List Byte)
  | 0, _ => []
  | n + 1, s => s.take 16 :: blocks16 n (s.drop 16)

/-- Bytes `4j .. 4j+3` as the host word of a byte window: the byte at the lower offset in the lower bits
(`20_memory.md` R56). -/
def lanesToWord (b0 b1 b2 b3 : Byte) : Word := b3 ++ b2 ++ b1 ++ b0

/-- The four bytes a host write of `x` stores, lowest offset first (`20_memory.md` R56). -/
def wordToLanes (x : Word) : List Byte :=
  [x.extractLsb' 0 8, x.extractLsb' 8 8, x.extractLsb' 16 8, x.extractLsb' 24 8]

end Sys2Proof.Machine
end

