-- ==== Sys2Proof/Machine/AesCipher.lean ====
section
/-! DEFINITION. The AES-128 cipher and key schedule (`42_aes.md` R106 to R112). -/

namespace Sys2Proof.Machine

open Sys2Proof

/-- One column of the cipher state, rows 0 to 3 (R106). -/
structure Column where
  r0 : Byte
  r1 : Byte
  r2 : Byte
  r3 : Byte
deriving DecidableEq, Repr

/-- The cipher state: four columns (R106). -/
structure AesState where
  c0 : Column
  c1 : Column
  c2 : Column
  c3 : Column
deriving DecidableEq, Repr

/-- Apply a byte function to every byte of the state. -/
def AesState.mapBytes (f : Byte → Byte) (s : AesState) : AesState :=
  let col (c : Column) : Column := ⟨f c.r0, f c.r1, f c.r2, f c.r3⟩
  ⟨col s.c0, col s.c1, col s.c2, col s.c3⟩

/-- Apply a column function to every column of the state. -/
def AesState.mapColumns (f : Column → Column) (s : AesState) : AesState :=
  ⟨f s.c0, f s.c1, f s.c2, f s.c3⟩

/-- Column `c` of a block: `s[r][c] = b[r + 4c]` (R106). -/
def columnOf (b : List Byte) (c : Nat) : Column :=
  ⟨b.getD (4 * c) 0, b.getD (4 * c + 1) 0, b.getD (4 * c + 2) 0, b.getD (4 * c + 3) 0⟩

/-- Load a block of 16 bytes column by column (R106). -/
def AesState.ofBlock (b : List Byte) : AesState :=
  ⟨columnOf b 0, columnOf b 1, columnOf b 2, columnOf b 3⟩

/-- The bytes of a column, row 0 first. -/
def Column.bytes (c : Column) : List Byte := [c.r0, c.r1, c.r2, c.r3]

/-- Store the state back the same way (R106). -/
def AesState.toBlock (s : AesState) : List Byte :=
  s.c0.bytes ++ s.c1.bytes ++ s.c2.bytes ++ s.c3.bytes

/-! ### GF(2^8) -/

/-- `xtime(a)`: multiply by x modulo 0x11B (R106). -/
def xtime (a : Byte) : Byte := (a <<< 1) ^^^ (if a.getLsbD 7 then 0x1B else 0)

/-- The product over the low `k` bits of `b`: the sum of `xtime^i(a)` over its set bits `i`. -/
def gfMulLoop : Nat → Byte → Byte → Byte
  | 0, _, _ => 0
  | k + 1, a, b => (if b.getLsbD 0 then a else 0) ^^^ gfMulLoop k (xtime a) (b >>> 1)

/-- `a • b` in GF(2^8) (R106). -/
def gfMul (a b : Byte) : Byte := gfMulLoop 8 a b

/-! ### SubBytes -/

/-- The SBOX table of R107, one row per high nibble, the entry of low nibble 0 first. -/
def sboxRows : List Block :=
  [0x637c777bf26b6fc53001672bfed7ab76,
   0xca82c97dfa5947f0add4a2af9ca472c0,
   0xb7fd9326363ff7cc34a5e5f171d83115,
   0x04c723c31896059a071280e2eb27b275,
   0x09832c1a1b6e5aa0523bd6b329e32f84,
   0x53d100ed20fcb15b6acbbe394a4c58cf,
   0xd0efaafb434d338545f9027f503c9fa8,
   0x51a3408f929d38f5bcb6da2110fff3d2,
   0xcd0c13ec5f974417c4a77e3d645d1973,
   0x60814fdc222a908846eeb814de5e0bdb,
   0xe0323a0a4906245cc2d3ac629195e479,
   0xe7c8376d8dd54ea96c56f4ea657aae08,
   0xba78252e1ca6b4c6e8dd741f4bbd8b8a,
   0x703eb5664803f60e613557b986c11d9e,
   0xe1f8981169d98e949b1e87e9ce5528df,
   0x8ca1890dbfe6426841992d0fb054bb16]

/-- The INV_SBOX table of R108, laid out the same way. -/
def invSboxRows : List Block :=
  [0x52096ad53036a538bf40a39e81f3d7fb,
   0x7ce339829b2fff87348e4344c4dee9cb,
   0x547b9432a6c2233dee4c950b42fac34e,
   0x082ea16628d924b2765ba2496d8bd125,
   0x72f8f66486689816d4a45ccc5d65b692,
   0x6c704850fdedb9da5e154657a78d9d84,
   0x90d8ab008cbcd30af7e45805b8b34506,
   0xd02c1e8fca3f0f02c1afbd0301138a6b,
   0x3a9111414f67dcea97f2cfcef0b4e673,
   0x96ac7422e7ad3585e2f937e81c75df6e,
   0x47f11a711d29c5896fb7620eaa18be1b,
   0xfc563e4bc6d279209adbc0fe78cd5af4,
   0x1fdda8338807c731b11210592780ec5f,
   0x60517fa919b54a0d2de57a9f93c99cef,
   0xa0e03b4dae2af5b0c8ebbb3c83539961,
   0x172b047eba77d626e169146355210c7d]

/-- The entry of a table for `x`: row the high nibble, column the low nibble. -/
def tableEntry (rows : List Block) (x : Byte) : Byte :=
  (rows.getD (x.toNat / 16) 0).extractLsb' (8 * (15 - x.toNat % 16)) 8

/-- `SBOX[x]` (R107). -/
def sbox (x : Byte) : Byte := tableEntry sboxRows x

/-- `INV_SBOX[x]` (R108). -/
def invSbox (x : Byte) : Byte := tableEntry invSboxRows x

/-- SubBytes (R107). -/
def subBytes (s : AesState) : AesState := s.mapBytes sbox

/-- InvSubBytes (R108). -/
def invSubBytes (s : AesState) : AesState := s.mapBytes invSbox

/-! ### The round transforms (R109) -/

/-- ShiftRows: `s'[r][c] = s[r][(c + r) mod 4]`. -/
def shiftRows (s : AesState) : AesState where
  c0 := ⟨s.c0.r0, s.c1.r1, s.c2.r2, s.c3.r3⟩
  c1 := ⟨s.c1.r0, s.c2.r1, s.c3.r2, s.c0.r3⟩
  c2 := ⟨s.c2.r0, s.c3.r1, s.c0.r2, s.c1.r3⟩
  c3 := ⟨s.c3.r0, s.c0.r1, s.c1.r2, s.c2.r3⟩

/-- InvShiftRows: `s'[r][c] = s[r][(c - r) mod 4]`. -/
def invShiftRows (s : AesState) : AesState where
  c0 := ⟨s.c0.r0, s.c3.r1, s.c2.r2, s.c1.r3⟩
  c1 := ⟨s.c1.r0, s.c0.r1, s.c3.r2, s.c2.r3⟩
  c2 := ⟨s.c2.r0, s.c1.r1, s.c0.r2, s.c3.r3⟩
  c3 := ⟨s.c3.r0, s.c2.r1, s.c1.r2, s.c0.r3⟩

/-- One column times the circulant of coefficients `k0 k1 k2 k3`:
`a'_r = k0•a_r XOR k1•a_{r+1} XOR k2•a_{r+2} XOR k3•a_{r+3}`, indices mod 4. -/
def mixColumn (k0 k1 k2 k3 : Byte) (a : Column) : Column where
  r0 := gfMul k0 a.r0 ^^^ gfMul k1 a.r1 ^^^ gfMul k2 a.r2 ^^^ gfMul k3 a.r3
  r1 := gfMul k0 a.r1 ^^^ gfMul k1 a.r2 ^^^ gfMul k2 a.r3 ^^^ gfMul k3 a.r0
  r2 := gfMul k0 a.r2 ^^^ gfMul k1 a.r3 ^^^ gfMul k2 a.r0 ^^^ gfMul k3 a.r1
  r3 := gfMul k0 a.r3 ^^^ gfMul k1 a.r0 ^^^ gfMul k2 a.r1 ^^^ gfMul k3 a.r2

/-- MixColumns. -/
def mixColumns (s : AesState) : AesState := s.mapColumns (mixColumn 2 3 1 1)

/-- InvMixColumns. -/
def invMixColumns (s : AesState) : AesState := s.mapColumns (mixColumn 0x0E 0x0B 0x0D 0x09)

/-- The 44 round-key words of a slot (`10_state.md` R37). -/
abbrev RoundKeys := Vector Word Config.aesRkWords

/-- Round-key word `w[i]`. -/
def roundKeyWord (w : RoundKeys) (i : Nat) : Word := w.toList.getD i 0

/-- A column XORed with the bytes of a round-key word, bits [31:24] into row 0. -/
def addWord (c : Column) (w : Word) : Column where
  r0 := c.r0 ^^^ w.extractLsb' 24 8
  r1 := c.r1 ^^^ w.extractLsb' 16 8
  r2 := c.r2 ^^^ w.extractLsb' 8 8
  r3 := c.r3 ^^^ w.extractLsb' 0 8

/-- AddRoundKey(r): column `c` with `w[4r + c]`. -/
def addRoundKey (w : RoundKeys) (r : Nat) (s : AesState) : AesState where
  c0 := addWord s.c0 (roundKeyWord w (4 * r))
  c1 := addWord s.c1 (roundKeyWord w (4 * r + 1))
  c2 := addWord s.c2 (roundKeyWord w (4 * r + 2))
  c3 := addWord s.c3 (roundKeyWord w (4 * r + 3))

/-! ### The cipher -/

/-- One of the rounds 1..9 of encryption (R110). -/
def encRound (w : RoundKeys) (s : AesState) (r : Nat) : AesState :=
  addRoundKey w r (mixColumns (shiftRows (subBytes s)))

/-- One of the rounds 9..1 of decryption (R111). -/
def decRound (w : RoundKeys) (s : AesState) (r : Nat) : AesState :=
  invMixColumns (addRoundKey w r (invSubBytes (invShiftRows s)))

/-- The state that `AesEncrypt` ends with (R110). -/
def encryptState (w : RoundKeys) (s : AesState) : AesState :=
  addRoundKey w 10 (shiftRows (subBytes
    ([1, 2, 3, 4, 5, 6, 7, 8, 9].foldl (encRound w) (addRoundKey w 0 s))))

/-- The state that `AesDecrypt` ends with (R111). -/
def decryptState (w : RoundKeys) (s : AesState) : AesState :=
  addRoundKey w 0 (invSubBytes (invShiftRows
    ([9, 8, 7, 6, 5, 4, 3, 2, 1].foldl (decRound w) (addRoundKey w 10 s))))

/-- `AesEncrypt(w, b)` (R110). -/
def aesEncrypt (w : RoundKeys) (b : List Byte) : List Byte :=
  (encryptState w (AesState.ofBlock b)).toBlock

/-- `AesDecrypt(w, b)` (R111). -/
def aesDecrypt (w : RoundKeys) (b : List Byte) : List Byte :=
  (decryptState w (AesState.ofBlock b)).toBlock

/-! ### The key schedule (R112) -/

/-- RotWord. -/
def rotWord (t : Word) : Word := t.rotateLeft 8

/-- SubWord: SBOX on each byte. -/
def subWord (t : Word) : Word :=
  sbox (t.extractLsb' 24 8) ++ sbox (t.extractLsb' 16 8) ++ sbox (t.extractLsb' 8 8) ++ sbox (t.extractLsb' 0 8)

/-- `RCON[j]` for `j` in 1..10. -/
def rcon (j : Nat) : Byte :=
  [0x01, 0x02, 0x04, 0x08, 0x10, 0x20, 0x40, 0x80, 0x1b, 0x36].getD (j - 1) 0

/-- What is XORed onto `w[i-4]` to give `w[i]`, from `t = w[i-1]`. -/
def scheduleWord (i : Nat) (t : Word) : Word :=
  if i % 4 = 0 then subWord (rotWord t) ^^^ (rcon (i / 4)).setWidth 32 <<< 24 else t

/-- The first `4 + n` words of the schedule of a key. -/
def expandKey (key : List Byte) : (n : Nat) → Vector Word (4 + n)
  | 0 => #v[wordBeAt key 0, wordBeAt key 4, wordBeAt key 8, wordBeAt key 12]
  | n + 1 =>
      let w := expandKey key n
      w.push (w[n] ^^^ scheduleWord (4 + n) w[3 + n])

/-- The 44 round-key words of a 16-byte key (R112). -/
def keySchedule (key : List Byte) : RoundKeys := expandKey key 40

end Sys2Proof.Machine
end

