-- ==== Sys2Proof/Machine/Window.lean ====
section
/-! DEFINITION. The register map (`10_state.md` R21): what stands at each offset of the window. -/

namespace Sys2Proof.Machine

open Sys2Proof

namespace Win

/-- Offset of AES_KEY, 16 bytes. -/
def aesKey : Nat := 0x0040
/-- Offset of AES_IV, 16 bytes. -/
def aesIv : Nat := 0x0050
/-- Offset of GCM_IV0, 12 bytes. -/
def gcmIv0 : Nat := 0x0060
/-- Offset of GCM_IV1, 12 bytes. -/
def gcmIv1 : Nat := 0x0070
/-- Offset of TAG, 16 bytes. -/
def tag : Nat := 0x0080
/-- Offset of DIGEST, 32 bytes. -/
def digest : Nat := 0x00A0
/-- Offset of SHA_BUF, 64 bytes. -/
def shaBuf : Nat := 0x0100
/-- Offset of AAD, 64 bytes. -/
def aad : Nat := 0x0200
/-- Offset of HKEY, 128 bytes. -/
def hkey : Nat := 0x0280
/-- Offset of PSBUF, 512 bytes. -/
def psBuf : Nat := 0x0400
/-- Offset of DATA, 16384 bytes. -/
def data : Nat := 0x4000

end Win

/-- The base and size of every byte window (`BW` rows of R21). -/
def byteWindows : List (Nat × Nat) :=
  [(Win.aesKey, 16), (Win.aesIv, 16), (Win.gcmIv0, 12), (Win.gcmIv1, 12), (Win.tag, 16), (Win.digest, 32),
   (Win.shaBuf, 64), (Win.aad, 64), (Win.hkey, 128), (Win.psBuf, 512), (Win.data, 16384)]

/-- Offset `a` lies in a byte window. -/
def inByteWindow (a : Nat) : Bool :=
  byteWindows.any fun w => decide (w.1 ≤ a) && decide (a < w.1 + w.2)

/-- The offset of the nonce window GCM_IVs of slot `s` (`10_state.md` R38). -/
def Win.gcmIv : Slot → Nat
  | .s0 => Win.gcmIv0
  | .s1 => Win.gcmIv1

/-- What stands at one word offset of the window (R21). -/
inductive WindowReg where
  | id | cmd | status | intEn | intStat | result | dataOff | dataLen | bnShamt | aadLen | hkeyLen | ctrl
  | rsaBits | rsaKlen
  /-- SHA_H`j`. -/
  | shaH (j : Nat)
  | shaCntLo | shaCntHi | shaCtx
  /-- Word `j` of bignum register `r`. -/
  | bnWord (r : BnReg) (j : Nat)
  /-- Round-key word `i` of slot `s`. -/
  | rkWord (s : Slot) (i : Nat)
  /-- The word of GCM_IVs at this window offset. -/
  | nonceWord (s : Slot) (off : Nat)
  /-- The word of another byte window at this window offset. -/
  | byteWord (off : Nat)
  | reserved
deriving DecidableEq, Repr

/-- `lo ≤ off < lo + size`. -/
def inSpan (off lo size : Nat) : Bool := decide (lo ≤ off) && decide (off < lo + size)

/-- What stands at word offset `off` (a multiple of 4 below 0x8000), row by row of R21; every other
offset is reserved (R22). -/
def locate (off : Nat) : WindowReg :=
  if off = 0x0000 then .id
  else if off = 0x0004 then .cmd
  else if off = 0x0008 then .status
  else if off = 0x000C then .intEn
  else if off = 0x0010 then .intStat
  else if off = 0x0014 then .result
  else if off = 0x0018 then .dataOff
  else if off = 0x001C then .dataLen
  else if off = 0x0020 then .bnShamt
  else if off = 0x0024 then .aadLen
  else if off = 0x0028 then .hkeyLen
  else if off = 0x002C then .ctrl
  else if off = 0x0030 then .rsaBits
  else if off = 0x0034 then .rsaKlen
  else if inSpan off Win.gcmIv0 12 then .nonceWord .s0 off
  else if inSpan off Win.gcmIv1 12 then .nonceWord .s1 off
  else if inByteWindow off then .byteWord off
  else if inSpan off 0x00C0 32 then .shaH ((off - 0x00C0) / 4)
  else if off = 0x00E0 then .shaCntLo
  else if off = 0x00E4 then .shaCntHi
  else if off = 0x00E8 then .shaCtx
  else if inSpan off 0x0800 0x200 then .bnWord .b0 ((off - 0x0800) / 4)
  else if inSpan off 0x0A00 0x200 then .bnWord .b1 ((off - 0x0A00) / 4)
  else if inSpan off 0x0C00 0x200 then .bnWord .b2 ((off - 0x0C00) / 4)
  else if inSpan off 0x0E00 0x200 then .bnWord .b3 ((off - 0x0E00) / 4)
  else if inSpan off 0x1000 0xB0 then .rkWord .s0 ((off - 0x1000) / 4)
  else if inSpan off 0x1100 0xB0 then .rkWord .s1 ((off - 0x1100) / 4)
  else .reserved

end Sys2Proof.Machine
end

