-- ==== Sys2Proof/Machine/Ops.lean ====
section
/-! DEFINITION. The named operations over memory and registers, and the one way a command ends
(`60_exceptions.md` R141, R142). -/

namespace Sys2Proof.Machine

open Sys2Proof

/-! ### The byte windows -/

/-- The byte at window offset `a`; an unlisted offset reads 0, its reset contents (`10_state.md` R52). -/
def Memory.read : Memory → Nat → Byte
  | [], _ => 0
  | (x, b) :: rest, a => if x = a then b else Memory.read rest a

/-- Insert an entry before the first entry of a higher offset. -/
def Memory.insert : Memory → Nat → Byte → Memory
  | [], a, v => [(a, v)]
  | (x, b) :: rest, a, v => if a < x then (a, v) :: (x, b) :: rest else (x, b) :: Memory.insert rest a v

/-- Write one byte, keeping the canonical form: the old entry goes, and a new one is listed only for a
value other than the 0 an unlisted offset reads as. -/
def Memory.write (m : Memory) (a : Nat) (v : Byte) : Memory :=
  let m' := m.filter (fun c => c.1 != a)
  if v = 0 then m' else Memory.insert m' a v

/-- The canonical form: offsets strictly rising, no entry equal to 0. -/
abbrev Memory.wf (m : Memory) : Prop :=
  m.Pairwise (fun c d => c.1 < d.1) ∧ ∀ c ∈ m, c.2 ≠ 0

/-- The byte string of `n` bytes at window offset `a` (`W[a..b)`, `00_scope.md` R15). -/
def Memory.readBytes (m : Memory) (a n : Nat) : List Byte :=
  (List.range n).map fun j => Memory.read m (a + j)

/-- Store a byte string from window offset `a` on. -/
def Memory.writeBytes (m : Memory) (a : Nat) : List Byte → Memory
  | [] => m
  | b :: bs => Memory.writeBytes (Memory.write m a b) (a + 1) bs

/-! ### Registers -/

/-- Read a bignum register. -/
def BnFile.get (f : BnFile) : BnReg → Bignum
  | .b0 => f.b0
  | .b1 => f.b1
  | .b2 => f.b2
  | .b3 => f.b3

/-- Write a bignum register. -/
def BnFile.set (f : BnFile) (r : BnReg) (v : Bignum) : BnFile :=
  match r with
  | .b0 => { f with b0 := v }
  | .b1 => { f with b1 := v }
  | .b2 => { f with b2 := v }
  | .b3 => { f with b3 := v }

/-- Read a key slot. -/
def SlotFile.get (f : SlotFile) : Slot → KeySlot
  | .s0 => f.s0
  | .s1 => f.s1

/-- Write a key slot. -/
def SlotFile.set (f : SlotFile) (s : Slot) (k : KeySlot) : SlotFile :=
  match s with
  | .s0 => { f with s0 := k }
  | .s1 => { f with s1 := k }

/-- `BN[i]`: a bignum register as an integer (`00_scope.md` R15). -/
def State.readBn (s : State) (r : BnReg) : Nat := (s.bn.get r).toNat

/-- `BN[i] <- v`, used for `v < 2^4096` only (`00_scope.md` R15). -/
def State.writeBn (s : State) (r : BnReg) (v : Nat) : State :=
  { s with bn := s.bn.set r (BitVec.ofNat Config.bnBits v) }

/-- `RESULT <- v` (`10_state.md` R28). -/
def State.setResult (s : State) (v : Nat) : State := { s with result := BitVec.ofNat 32 v }

/-- `STATUS.VOK <- b`. -/
def State.setVok (s : State) (b : Bool) : State := { s with vok := b }

/-- `STATUS.CMP <- c`. -/
def State.setCmp (s : State) (c : CmpFlag) : State := { s with cmp := c }

/-- Key slot `k` as a slot read. -/
def State.slot (s : State) (k : Slot) : KeySlot := s.slots.get k

/-- Write key slot `k`. -/
def State.setSlot (s : State) (k : Slot) (v : KeySlot) : State := { s with slots := s.slots.set k v }

/-- `NU[k] <- b` (`43_gcm.md` R123). -/
def State.setNu (s : State) (k : Slot) (b : Bool) : State := s.setSlot k { s.slot k with nu := b }

/-- The bytes `W[0..n)` of the byte window at `base`. -/
def State.readWindow (s : State) (base n : Nat) : List Byte := Memory.readBytes s.mem base n

/-- Store a byte string from window offset `base` on. -/
def State.writeWindow (s : State) (base : Nat) (bs : List Byte) : State :=
  { s with mem := Memory.writeBytes s.mem base bs }

/-- `DataRead(off, n)` (`00_scope.md` R15; used where `inrange(off, n)` holds). -/
def State.dataRead (s : State) (off n : Nat) : List Byte := s.readWindow (Win.data + off) n

/-- `DataWrite(off, s)` (`00_scope.md` R15; used where it stays in DATA). -/
def State.dataWrite (s : State) (off : Nat) (bs : List Byte) : State := s.writeWindow (Win.data + off) bs

/-- Load the RSA key store (`41_rsa.md` R100): `n`, `e`, the bit length and the byte length of `n`. -/
def State.setRsaKey (s : State) (n e : Bignum) : State :=
  { s with
    rsaN := n
    rsaE := e
    rsaBits := BitVec.ofNat 13 (bitLength n.toNat)
    rsaKlen := BitVec.ofNat 10 ((bitLength n.toNat + 7) / 8)
    rsaKv := true }

/-! ### How a command ends -/

/-- The writes of the completion step (`60_exceptions.md` R141): ERR takes the code, BUSY clears, DONE
sets. Taking an error IS this: the block has no traps (R147). -/
def State.finish (s : State) (e : ErrCode) : State :=
  { s with err := e, busy := false, intDone := true }

/-- `complete`: the command ends with OK after its writes (`00_scope.md` R15). -/
def State.complete (s : State) : Result := .next (s.finish .ok)

/-- `fail E`: the command ends with code `E` and has written nothing (`00_scope.md` R15,
`60_exceptions.md` R142). -/
def State.fail (s : State) (e : ErrCode) : Result := .next (s.finish e)

/-! ### Reset -/

/-- All state of the block returns to its reset value; a command in flight is abandoned without a
completion step (`70_reset_and_hazards.md` R156, R157). The model's own fields belong to the environment
and stay (log entry 5). -/
def State.resetBlock (s : State) : State :=
  { State.reset with inputs := s.inputs, rdata := s.rdata, draws := s.draws }

end Sys2Proof.Machine
end

