-- ==== Sys2Proof/Machine/Operands.lean ====
section
/-! DEFINITION. The operands of the commands (`10_state.md` R29, `20_memory.md` R64). -/

namespace Sys2Proof.Machine

open Sys2Proof

/-- `inrange(off, n)`: `off + n ≤ DATA_BYTES`, an unbounded sum (`20_memory.md` R64). -/
def inRange (off n : Nat) : Bool := decide (off + n ≤ Config.dataBytes)

/-- DATA_OFF as a number (`30_encoding.md` R77). -/
def State.off (s : State) : Nat := s.dataOff.toNat

/-- DATA_LEN as a number. -/
def State.len (s : State) : Nat := s.dataLen.toNat

/-- BN_SHAMT as a number. -/
def State.shamt (s : State) : Nat := s.bnShamt.toNat

/-- The DATA operand `DATA[DATA_OFF .. DATA_OFF+n)`. -/
def State.operand (s : State) (n : Nat) : List Byte := s.dataRead s.off n

/-- `A = AAD[0 .. AAD_LEN)` (`10_state.md` R47). -/
def State.aadBytes (s : State) : List Byte := s.readWindow Win.aad s.aadLen.toNat

/-- `HKEY[0 .. HKEY_LEN)` (`10_state.md` R45). -/
def State.hkeyBytes (s : State) : List Byte := s.readWindow Win.hkey s.hkeyLen.toNat

/-- `PSBUF[0 .. n)` (`10_state.md` R48). -/
def State.psBytes (s : State) (n : Nat) : List Byte := s.readWindow Win.psBuf n

/-- The 16 bytes of AES_KEY (`10_state.md` R35). -/
def State.aesKeyBytes (s : State) : List Byte := s.readWindow Win.aesKey 16

/-- The 16 bytes of AES_IV (`10_state.md` R36). -/
def State.aesIvBytes (s : State) : List Byte := s.readWindow Win.aesIv 16

/-- The 12 nonce bytes of slot `k` (`10_state.md` R38). -/
def State.nonceBytes (s : State) (k : Slot) : List Byte := s.readWindow (Win.gcmIv k) Config.gcmNonceBytes

/-- The 16 bytes of TAG (`10_state.md` R39). -/
def State.tagBytes (s : State) : List Byte := s.readWindow Win.tag Config.gcmTagBytes

/-- The 32 bytes of DIGEST (`10_state.md` R44). -/
def State.digestBytes (s : State) : List Byte := s.readWindow Win.digest Config.digestBytes

/-- The 64 bytes of SHA_BUF (`10_state.md` R43). -/
def State.shaBufBytes (s : State) : List Byte := s.readWindow Win.shaBuf Config.shaBlockBytes

end Sys2Proof.Machine
end

