-- ==== Sys2Proof/Machine/Aes.lean ====
section
/-! DEFINITION. The AES key, block and CBC commands (`42_aes.md` R112 to R116). -/

namespace Sys2Proof.Machine

open Sys2Proof

/-- CBC encryption of `n` blocks (R115): the ciphertext, and the last ciphertext block. -/
def cbcEncrypt (w : RoundKeys) : Nat → List Byte → List Byte → List Byte × List Byte
  | 0, prev, _ => ([], prev)
  | n + 1, prev, p =>
      let c := aesEncrypt w (xorBytes (p.take 16) prev)
      let rest := cbcEncrypt w n c (p.drop 16)
      (c ++ rest.1, rest.2)

/-- CBC decryption of `n` blocks (R116): the plaintext, and the last ciphertext block. -/
def cbcDecrypt (w : RoundKeys) : Nat → List Byte → List Byte → List Byte × List Byte
  | 0, prev, _ => ([], prev)
  | n + 1, prev, c =>
      let p := xorBytes (aesDecrypt w (c.take 16)) prev
      let rest := cbcDecrypt w n (c.take 16) (c.drop 16)
      (p ++ rest.1, rest.2)

/-- The checks of a CBC command (R115, R116, `60_exceptions.md` R144): the first that fails. -/
def State.cbcCheck (s : State) (slot : Slot) : Option ErrCode :=
  if !(s.slot slot).kv then some .noKey
  else if !inRange s.off s.len then some .range
  else if s.len % 16 ≠ 0 then some .align
  else none

/-- The checks of a single-block command (R113, R114): the first that fails. -/
def State.blockCheck (s : State) (slot : Slot) : Option ErrCode :=
  if !(s.slot slot).kv then some .noKey
  else if !inRange s.off 16 then some .range
  else none

/-- AES_KEYEXP (R112). -/
def execAesKeyExp (slot : Slot) (s : State) : Result :=
  (s.setSlot slot { rk := keySchedule s.aesKeyBytes, kv := true, nu := false }).complete

/-- AES_ENCBLK (R113). -/
def execAesEncBlk (slot : Slot) (s : State) : Result :=
  match s.blockCheck slot with
  | some e => s.fail e
  | none => (s.dataWrite s.off (aesEncrypt (s.slot slot).rk (s.operand 16))).complete

/-- AES_DECBLK (R114). -/
def execAesDecBlk (slot : Slot) (s : State) : Result :=
  match s.blockCheck slot with
  | some e => s.fail e
  | none => (s.dataWrite s.off (aesDecrypt (s.slot slot).rk (s.operand 16))).complete

/-- AES_CBCENC (R115). -/
def execAesCbcEnc (slot : Slot) (s : State) : Result :=
  match s.cbcCheck slot with
  | some e => s.fail e
  | none =>
      let out := cbcEncrypt (s.slot slot).rk (s.len / 16) s.aesIvBytes (s.operand s.len)
      ((s.dataWrite s.off out.1).writeWindow Win.aesIv out.2).complete

/-- AES_CBCDEC (R116). -/
def execAesCbcDec (slot : Slot) (s : State) : Result :=
  match s.cbcCheck slot with
  | some e => s.fail e
  | none =>
      let out := cbcDecrypt (s.slot slot).rk (s.len / 16) s.aesIvBytes (s.operand s.len)
      ((s.dataWrite s.off out.1).writeWindow Win.aesIv out.2).complete

end Sys2Proof.Machine
end

