-- ==== Sys2Proof/Machine/Arith.lean ====
section
/-! DEFINITION. Modular arithmetic of the bignum unit (`40_bignum.md` R96, R99). -/

namespace Sys2Proof.Machine

open Sys2Proof

/-- The loop of R96: `k` times subtract `d` from `r` if possible and halve `d`. -/
def reduceLoop : Nat → Nat → Nat → Nat
  | 0, r, _ => r
  | k + 1, r, d => reduceLoop k (if r ≥ d then r - d else r) (d / 2)

/-- The source's shift-and-subtract reduction, step by step (R96). "Only the result is architectural":
the commands use `reduce`. -/
def reduceBySubtraction (a m : Nat) : Nat :=
  if a < m then a
  else reduceLoop (bitLength a - bitLength m + 1) a (m * 2 ^ (bitLength a - bitLength m))

/-- `Reduce(a, m) = a mod m` for `m ≥ 1` (R96; log entry 12). -/
def reduce (a m : Nat) : Nat := a % m

/-- The loop of R99 over the remaining `k` exponent bits: `e` holds them, lowest first. -/
def modExpLoop (m : Nat) : Nat → Nat → Nat → Nat → Nat
  | 0, _, _, acc => acc
  | k + 1, e, base, acc =>
      modExpLoop m k (e / 2) (reduce (base * base) m) (if e % 2 = 1 then reduce (acc * base) m else acc)

/-- `a ^ e mod m` by square-and-multiply from the least significant exponent bit (R99). -/
def modExp (a e m : Nat) : Nat := modExpLoop m (bitLength e) e a (reduce 1 m)

end Sys2Proof.Machine
end

