-- ==== Sys2Proof/Machine/Flags.lean ====
section
/-! DEFINITION. The flags and the register words made of them (`10_state.md` R25 to R27, R50), and the
interrupt output (`60_exceptions.md` R145). -/

namespace Sys2Proof.Machine

open Sys2Proof

/-- The 8-bit code of an error (`60_exceptions.md` R143). -/
def ErrCode.code : ErrCode → BitVec 8
  | .ok => 0x00
  | .illegal => 0x01
  | .range => 0x02
  | .capacity => 0x03
  | .overflow => 0x04
  | .underflow => 0x05
  | .divZero => 0x06
  | .align => 0x07
  | .noKey => 0x08
  | .seq => 0x09
  | .msgLen => 0x0A
  | .padZero => 0x0B
  | .tag => 0x0C
  | .nonce => 0x0D
  | .key => 0x0E

/-- The 2-bit value of STATUS.CMP (`10_state.md` R25). -/
def CmpFlag.code : CmpFlag → BitVec 2
  | .equal => 0
  | .less => 1
  | .greater => 2

/-- The flag BN_CMP gives for `a` against `b` (`40_bignum.md` R93). -/
def cmpFlag (a b : Nat) : CmpFlag := if a = b then .equal else if a < b then .less else .greater

/-- STATUS as the host reads it (`10_state.md` R25), highest field first. -/
def State.statusWord (s : State) : Word :=
  (0 : BitVec 10) ++ BitVec.ofBool s.slots.s1.nu ++ BitVec.ofBool s.slots.s0.nu ++ BitVec.ofBool s.rsaKv ++
    BitVec.ofBool s.slots.s1.kv ++ BitVec.ofBool s.slots.s0.kv ++ BitVec.ofBool s.shaValid ++ s.err.code ++
    (0 : BitVec 4) ++ s.cmp.code ++ BitVec.ofBool s.vok ++ BitVec.ofBool s.busy

/-- INT_EN as the host reads it (`10_state.md` R26). -/
def State.intEnWord (s : State) : Word :=
  (0 : BitVec 30) ++ BitVec.ofBool s.ovrEn ++ BitVec.ofBool s.doneEn

/-- INT_STAT as the host reads it (`10_state.md` R27). -/
def State.intStatWord (s : State) : Word :=
  (0 : BitVec 30) ++ BitVec.ofBool s.intOvr ++ BitVec.ofBool s.intDone

/-- A host write of INT_EN: bits 31:2 ignore writes (`10_state.md` R26). -/
def State.writeIntEn (s : State) (v : Word) : State :=
  { s with doneEn := v.getLsbD 0, ovrEn := v.getLsbD 1 }

/-- A host write of INT_STAT clears the bits written as 1 (`10_state.md` R27). -/
def State.clearIntStat (s : State) (v : Word) : State :=
  { s with intDone := s.intDone && !v.getLsbD 0, intOvr := s.intOvr && !v.getLsbD 1 }

/-- `irq = (DONE AND DONE_EN) OR (OVR AND OVR_EN)` (`60_exceptions.md` R145). -/
def State.irq (s : State) : Bool := (s.intDone && s.doneEn) || (s.intOvr && s.ovrEn)

end Sys2Proof.Machine
end

