-- ==== Sys2Proof/Machine/Bignum.lean ====
section
/-! DEFINITION. The bignum commands (`40_bignum.md`). Results are exact integers; one that does not fit
is an error (R83). -/

namespace Sys2Proof.Machine

open Sys2Proof

/-- BN_FROMBYTES (R86). -/
def execBnFromBytes (rd : BnReg) (s : State) : Result :=
  if !inRange s.off s.len then s.fail .range
  else if s.len > Config.bnBytes then s.fail .capacity
  else (s.writeBn rd (fromBytes (s.operand s.len))).complete

/-- BN_TOBYTES (R87). -/
def execBnToBytes (rs1 : BnReg) (s : State) : Result :=
  if !inRange s.off s.len then s.fail .range
  else if s.len > Config.bnBytes then s.fail .capacity
  else if s.readBn rs1 ≥ 256 ^ s.len then s.fail .overflow
  else (s.dataWrite s.off (toBytes (s.readBn rs1) s.len)).complete

/-- BN_ADD (R88). -/
def execBnAdd (rd rs1 rs2 : BnReg) (s : State) : Result :=
  let sum := s.readBn rs1 + s.readBn rs2
  if sum ≥ 2 ^ Config.bnBits then s.fail .overflow
  else (s.writeBn rd sum).complete

/-- BN_SUB (R89). -/
def execBnSub (rd rs1 rs2 : BnReg) (s : State) : Result :=
  if s.readBn rs1 < s.readBn rs2 then s.fail .underflow
  else (s.writeBn rd (s.readBn rs1 - s.readBn rs2)).complete

/-- BN_MUL (R90). -/
def execBnMul (rd rs1 rs2 : BnReg) (s : State) : Result :=
  let product := s.readBn rs1 * s.readBn rs2
  if product ≥ 2 ^ Config.bnBits then s.fail .overflow
  else (s.writeBn rd product).complete

/-- BN_SHL (R91). The test is the corner case's "`a ≠ 0` fails exactly when `bitlength(a) + s > 4096`",
so that no amount is too large to compute with (log entry 13). -/
def execBnShl (rd rs1 : BnReg) (s : State) : Result :=
  let a := s.readBn rs1
  if a = 0 then (s.writeBn rd 0).complete
  else if bitLength a + s.shamt > Config.bnBits then s.fail .overflow
  else (s.writeBn rd (a * 2 ^ s.shamt)).complete

/-- BN_SHR (R92). -/
def execBnShr (rd rs1 : BnReg) (s : State) : Result :=
  (s.writeBn rd (s.readBn rs1 >>> s.shamt)).complete

/-- BN_CMP (R93). -/
def execBnCmp (rs1 rs2 : BnReg) (s : State) : Result :=
  (s.setCmp (cmpFlag (s.readBn rs1) (s.readBn rs2))).complete

/-- BN_BITLEN (R94). -/
def execBnBitLen (rs1 : BnReg) (s : State) : Result :=
  (s.setResult (bitLength (s.readBn rs1))).complete

/-- BN_BITTEST (R95). -/
def execBnBitTest (rs1 : BnReg) (s : State) : Result :=
  (s.setResult ((s.readBn rs1 >>> s.shamt) % 2)).complete

/-- BN_MOD (R97). -/
def execBnMod (rd rs1 rm : BnReg) (s : State) : Result :=
  if s.readBn rm = 0 then s.fail .divZero
  else (s.writeBn rd (reduce (s.readBn rs1) (s.readBn rm))).complete

/-- BN_MODMUL (R98): the product is exact before it is reduced. -/
def execBnModMul (rd rs1 rs2 rm : BnReg) (s : State) : Result :=
  if s.readBn rm = 0 then s.fail .divZero
  else (s.writeBn rd (reduce (s.readBn rs1 * s.readBn rs2) (s.readBn rm))).complete

/-- BN_MODEXP (R99). -/
def execBnModExp (rd rs1 rs2 rm : BnReg) (s : State) : Result :=
  if s.readBn rm = 0 then s.fail .divZero
  else (s.writeBn rd (modExp (s.readBn rs1) (s.readBn rs2) (s.readBn rm))).complete

end Sys2Proof.Machine
end

