-- ==== Sys2Proof/Machine/Control.lean ====
section
/-! DEFINITION. The control command (`45_control.md`). -/

namespace Sys2Proof.Machine

open Sys2Proof

/-- NOP (R137): complete, and nothing else. -/
def execNop (s : State) : Result := s.complete

end Sys2Proof.Machine
end

