-- ==== Sys2Proof/Machine/GcmMode.lean ====
section
/-! DEFINITION. The GCM construction for a 96-bit nonce (`43_gcm.md` R118 to R122). -/

namespace Sys2Proof.Machine

open Sys2Proof

/-- `int(X)` of a 16-byte block: byte 0 most significant (R118). -/
def blockInt (x : List Byte) : Block := BitVec.ofNat 128 (fromBytes x)

/-- The 16 bytes of a 128-bit number (R120). -/
def blockBytes (y : Block) : List Byte := toBytes y.toNat 16

/-- `pad(S)`: the fewest zero bytes up to a multiple of 16 (R118). -/
def pad16 (s : List Byte) : List Byte := s ++ zeroBytes ((16 - s.length % 16) % 16)

/-- `len64(S)`: the length in bits, 8 bytes big-endian (R118). -/
def len64 (s : List Byte) : List Byte := toBytes (8 * s.length) 8

/-- `V >> 1`, XORed with `R = 0xE1 << 120` where the bit shifted out is 1 (R119). -/
def ghashShift (v : Block) : Block :=
  if v.getLsbD 0 then (v >>> 1) ^^^ (0xE1 <<< 120) else v >>> 1

/-- The loop of R119 over the remaining `k` bits of `X`: the block bit `i` is bit `127 - i = k - 1` of the
number. -/
def ghashMulLoop (x : Block) : Nat → Block → Block → Block
  | 0, z, _ => z
  | k + 1, z, v => ghashMulLoop x k (if x.getLsbD k then z ^^^ v else z) (ghashShift v)

/-- The GHASH product `X • Y` (R119). -/
def ghashMul (x y : Block) : Block := ghashMulLoop x 128 0 y

/-- `GHASH(H, S)` of a byte string whose length is a multiple of 16 (R120). -/
def ghash (h : List Byte) (s : List Byte) : List Byte :=
  blockBytes ((blocks16 (s.length / 16) s).foldl (fun y b => ghashMul (y ^^^ blockInt b) (blockInt h)) 0)

/-- The hash subkey `H = AesEncrypt(RK[s], 0^16)` (R120). -/
def hashSubkey (w : RoundKeys) : List Byte := aesEncrypt w (zeroBytes 16)

/-- The pre-counter block `J0 = IV ‖ 00 00 00 01` (R121). -/
def preCounter (iv : List Byte) : List Byte := iv ++ [0x00, 0x00, 0x00, 0x01]

/-- `inc32(X)`: add 1 modulo 2^32 to the last four bytes (R121). -/
def inc32 (x : List Byte) : List Byte :=
  x.take 12 ++ bytesBe (wordBeAt x 12 + 1)

/-- The counter mode over `n` blocks from counter block `cb` (R121); the last block may be partial. -/
def gctrLoop (w : RoundKeys) : Nat → List Byte → List Byte → List Byte
  | 0, _, _ => []
  | n + 1, cb, s => xorBytes (s.take 16) (aesEncrypt w cb) ++ gctrLoop w n (inc32 cb) (s.drop 16)

/-- `GCTR(ICB, S)` (R121). -/
def gctr (w : RoundKeys) (icb : List Byte) (s : List Byte) : List Byte :=
  gctrLoop w ((s.length + 15) / 16) icb s

/-- The payload keystream starts at `inc32(J0)` (R121). -/
def gcmCrypt (w : RoundKeys) (iv s : List Byte) : List Byte := gctr w (inc32 (preCounter iv)) s

/-- The tag over AAD `a` and ciphertext `c` (R122). -/
def gcmTag (w : RoundKeys) (iv a c : List Byte) : List Byte :=
  xorBytes (aesEncrypt w (preCounter iv))
    (ghash (hashSubkey w) (pad16 a ++ pad16 c ++ len64 a ++ len64 c))

/-- `d`: the OR over all 16 bytes of `T[j] XOR TAG[j]` (R125), every byte examined. -/
def tagDifference (t tag : List Byte) : Byte :=
  (xorBytes t tag).foldl (· ||| ·) 0

end Sys2Proof.Machine
end

