-- ==== Sys2Proof/Machine/Gcm.lean ====
section
/-! DEFINITION. The GCM commands (`43_gcm.md` R124, R125). -/

namespace Sys2Proof.Machine

open Sys2Proof

/-- GCM_ENC (R124). -/
def execGcmEnc (slot : Slot) (s : State) : Result :=
  let k := s.slot slot
  if !k.kv then s.fail .noKey
  else if k.nu then s.fail .nonce
  else if !inRange s.off s.len then s.fail .range
  else if s.aadLen.toNat > Config.aadBytes then s.fail .range
  else
    let c := gcmCrypt k.rk (s.nonceBytes slot) (s.operand s.len)
    let t := gcmTag k.rk (s.nonceBytes slot) s.aadBytes c
    (((s.dataWrite s.off c).writeWindow Win.tag t).setNu slot true).complete

/-- GCM_DEC (R125): no plaintext is written unless the tag matches. -/
def execGcmDec (slot : Slot) (s : State) : Result :=
  let k := s.slot slot
  if !k.kv then s.fail .noKey
  else if !inRange s.off s.len then s.fail .range
  else if s.aadLen.toNat > Config.aadBytes then s.fail .range
  else
    let c := s.operand s.len
    let t := gcmTag k.rk (s.nonceBytes slot) s.aadBytes c
    if tagDifference t s.tagBytes ≠ 0 then s.fail .tag
    else (s.dataWrite s.off (gcmCrypt k.rk (s.nonceBytes slot) c)).complete

end Sys2Proof.Machine
end

