-- ==== Sys2Proof/Machine/Rsa.lean ====
section
/-! DEFINITION. The RSA commands (`41_rsa.md`). -/

namespace Sys2Proof.Machine

open Sys2Proof

/-- The DER DigestInfo prefix for SHA-256 (R104). -/
def digestInfoPrefix : List Byte :=
  [0x30, 0x31, 0x30, 0x0d, 0x06, 0x09, 0x60, 0x86, 0x48, 0x01, 0x65, 0x03, 0x04, 0x02, 0x01, 0x05,
   0x00, 0x04, 0x20]

/-- The key byte length `k` (R100). -/
def State.keyBytes (s : State) : Nat := s.rsaKlen.toNat

/-- The encryption block `EM = 00 ‖ 02 ‖ PS ‖ 00 ‖ M` (R102). -/
def encryptionBlock (ps msg : List Byte) : List Byte := [0x00, 0x02] ++ ps ++ [0x00] ++ msg

/-- The expected signature block `T = 00 ‖ 01 ‖ ff^(k-54) ‖ 00 ‖ DigestInfo ‖ DIGEST` (R105). -/
def signatureBlock (k : Nat) (digest : List Byte) : List Byte :=
  [0x00, 0x01] ++ List.replicate (k - 54) 0xFF ++ [0x00] ++ digestInfoPrefix ++ digest

/-- `x ^ RSA_E mod RSA_N` (R103, R105, "as BN_MODEXP"). -/
def State.rsaPower (s : State) (x : Nat) : Nat := modExp x s.rsaE.toNat s.rsaN.toNat

/-- RSA_SETKEY (R100): RS2 names the exponent, RM the modulus. -/
def execRsaSetKey (rs2 rm : BnReg) (s : State) : Result :=
  if s.readBn rm = 0 then s.fail .key
  else (s.setRsaKey (s.bn.get rm) (s.bn.get rs2)).complete

/-- RSA_ENC (R103). -/
def execRsaEnc (s : State) : Result :=
  let k := s.keyBytes
  if !s.rsaKv then s.fail .noKey
  else if !inRange s.off (max s.len k) then s.fail .range
  else if s.len + 11 > k then s.fail .msgLen
  else
    let ps := s.psBytes (k - s.len - 3)
    if ps.any (· == 0) then s.fail .padZero
    else
      let c := s.rsaPower (fromBytes (encryptionBlock ps (s.operand s.len)))
      ((s.dataWrite s.off (toBytes c k)).setResult k).complete

/-- RSA_VERIFY (R105): a mismatch is no error, it clears VOK. -/
def execRsaVerify (s : State) : Result :=
  let k := s.keyBytes
  if !s.rsaKv then s.fail .noKey
  else if !inRange s.off s.len then s.fail .range
  else if s.len > Config.bnBytes then s.fail .capacity
  else
    let v := s.rsaPower (fromBytes (s.operand s.len))
    (s.setVok (decide (k ≥ 62) && toBytes v k == signatureBlock k s.digestBytes)).complete

end Sys2Proof.Machine
end

