-- ==== Sys2Proof/Machine/Sha256.lean ====
section
/-! DEFINITION. SHA-256: the compression function, the streaming context and the padding (`44_sha.md`
R126 to R130). -/

namespace Sys2Proof.Machine

open Sys2Proof

/-- The initial hash words `H0[0..7]` (R126). -/
def sha256Init : Hash8 :=
  ⟨0x6a09e667, 0xbb67ae85, 0x3c6ef372, 0xa54ff53a, 0x510e527f, 0x9b05688c, 0x1f83d9ab, 0x5be0cd19⟩

/-- The table of round constants (R126), row by row, each row as one number: column 0 in its highest 32 bits. -/
def sha256KRows : List (BitVec 256) :=
  [0x428a2f9871374491b5c0fbcfe9b5dba53956c25b59f111f1923f82a4ab1c5ed5,
   0xd807aa9812835b01243185be550c7dc372be5d7480deb1fe9bdc06a7c19bf174,
   0xe49b69c1efbe47860fc19dc6240ca1cc2de92c6f4a7484aa5cb0a9dc76f988da,
   0x983e5152a831c66db00327c8bf597fc7c6e00bf3d5a7914706ca635114292967,
   0x27b70a852e1b21384d2c6dfc53380d13650a7354766a0abb81c2c92e92722c85,
   0xa2bfe8a1a81a664bc24b8b70c76c51a3d192e819d6990624f40e3585106aa070,
   0x19a4c1161e376c082748774c34b0bcb5391c0cb34ed8aa4a5b9cca4f682e6ff3,
   0x748f82ee78a5636f84c878148cc7020890befffaa4506cebbef9a3f7c67178f2]

/-- The round constants `K[0..63]`: `K[t]` is column `t mod 8` of row `t div 8` (R126). -/
def sha256K : List Word :=
  (List.range 64).map fun t => (sha256KRows.getD (t / 8) 0).extractLsb' (32 * (7 - t % 8)) 32

/-! ### Functions on 32-bit words (R127) -/

/-- `Ch(e, f, g)`. -/
def shaCh (e f g : Word) : Word := (e &&& f) ^^^ (~~~e &&& g)
/-- `Maj(a, b, c)`. -/
def shaMaj (a b c : Word) : Word := (a &&& b) ^^^ (a &&& c) ^^^ (b &&& c)
/-- `Σ0(a)`. -/
def shaBigSigma0 (a : Word) : Word := a.rotateRight 2 ^^^ a.rotateRight 13 ^^^ a.rotateRight 22
/-- `Σ1(e)`. -/
def shaBigSigma1 (e : Word) : Word := e.rotateRight 6 ^^^ e.rotateRight 11 ^^^ e.rotateRight 25
/-- `σ0(x)`. -/
def shaSigma0 (x : Word) : Word := x.rotateRight 7 ^^^ x.rotateRight 18 ^^^ (x >>> 3)
/-- `σ1(x)`. -/
def shaSigma1 (x : Word) : Word := x.rotateRight 17 ^^^ x.rotateRight 19 ^^^ (x >>> 10)

/-! ### Compression (R128) -/

/-- `W[0..15]`: the block's words, big-endian. -/
def messageWords (b : List Byte) : List Word := (List.range 16).map fun t => wordBeAt b (4 * t)

/-- Append `W[t]` to `W[0..t-1]`, for `t ≥ 16`. -/
def extendSchedule (w : List Word) : List Word :=
  let t := w.length
  w ++ [shaSigma1 (w.getD (t - 2) 0) + w.getD (t - 7) 0 + shaSigma0 (w.getD (t - 15) 0) + w.getD (t - 16) 0]

/-- `W[0..15+n]`. -/
def scheduleWords (b : List Byte) : Nat → List Word
  | 0 => messageWords b
  | n + 1 => extendSchedule (scheduleWords b n)

/-- One round, from `K[t] + W[t]`'s two words, on the working variables a..h. -/
def shaRound (v : Hash8) (kw : Word × Word) : Hash8 :=
  let t1 := v.h7 + shaBigSigma1 v.h4 + shaCh v.h4 v.h5 v.h6 + kw.1 + kw.2
  let t2 := shaBigSigma0 v.h0 + shaMaj v.h0 v.h1 v.h2
  { h0 := t1 + t2, h1 := v.h0, h2 := v.h1, h3 := v.h2, h4 := v.h3 + t1, h5 := v.h4, h6 := v.h5, h7 := v.h6 }

/-- Word-wise sum modulo 2^32. -/
def Hash8.add (x y : Hash8) : Hash8 :=
  ⟨x.h0 + y.h0, x.h1 + y.h1, x.h2 + y.h2, x.h3 + y.h3, x.h4 + y.h4, x.h5 + y.h5, x.h6 + y.h6, x.h7 + y.h7⟩

/-- `Compress(H, B)` (R128). -/
def compress (h : Hash8) (b : List Byte) : Hash8 :=
  h.add ((sha256K.zip (scheduleWords b 48)).foldl shaRound h)

/-! ### The streaming context (R129, R130) -/

/-- A hash context: state words, bit counter and pending block (`10_state.md` R40, R41, R43). -/
structure ShaContext where
  h : Hash8
  cnt : Dword
  buf : List Byte
deriving DecidableEq, Repr

/-- `SHA_PEND = (SHA_CNT >> 3) mod 64` (`10_state.md` R41). -/
def shaPending (cnt : Dword) : Nat := (cnt.toNat >>> 3) % 64

/-- Absorb one byte (R129). -/
def absorbByte (c : ShaContext) (x : Byte) : ShaContext :=
  let buf := c.buf.set (shaPending c.cnt) x
  let cnt := c.cnt + 8
  { h := if shaPending cnt = 0 then compress c.h buf else c.h, cnt := cnt, buf := buf }

/-- `Absorb(S)` (R129). -/
def absorb (c : ShaContext) (s : List Byte) : ShaContext := s.foldl absorbByte c

/-- The padding for a context: `80 ‖ 00^z ‖ to_bytes(L, 8)` with `z = (55 - p) mod 64` (R130). -/
def shaPadding (cnt : Dword) : List Byte :=
  [0x80] ++ zeroBytes ((119 - shaPending cnt) % 64) ++ toBytes cnt.toNat 8

/-- The context `Finish()` leaves (R130). -/
def finishContext (c : ShaContext) : ShaContext := absorb c (shaPadding c.cnt)

/-- The state words big-endian, H[0] first (R130). -/
def Hash8.bytes (h : Hash8) : List Byte :=
  bytesBe h.h0 ++ bytesBe h.h1 ++ bytesBe h.h2 ++ bytesBe h.h3 ++
    bytesBe h.h4 ++ bytesBe h.h5 ++ bytesBe h.h6 ++ bytesBe h.h7

/-- A fresh context: `H = H0`, the counter and the pending block zero (R130, R131). -/
def freshContext : ShaContext := { h := sha256Init, cnt := 0, buf := zeroBytes Config.shaBlockBytes }

/-- `SHA256(M)` on a scratch context (R130). -/
def sha256 (m : List Byte) : List Byte := (finishContext (absorb freshContext m)).h.bytes

/-! ### HMAC (R136) -/

/-- `K0`: the key, hashed first if longer than a block, zero-padded to a block. -/
def hmacKeyBlock (key : List Byte) : List Byte :=
  let k := if key.length > Config.shaBlockBytes then sha256 key else key
  k ++ zeroBytes (Config.shaBlockBytes - k.length)

/-- `SHA256((K0 XOR 5c^64) ‖ SHA256((K0 XOR 36^64) ‖ message))`. -/
def hmacSha256 (key msg : List Byte) : List Byte :=
  let k0 := hmacKeyBlock key
  let inner := sha256 (k0.map (· ^^^ 0x36) ++ msg)
  sha256 (k0.map (· ^^^ 0x5c) ++ inner)

end Sys2Proof.Machine
end

