-- ==== Sys2Proof/Machine/Sha.lean ====
section
/-! DEFINITION. The SHA-256 and HMAC commands (`44_sha.md` R131 to R136). -/

namespace Sys2Proof.Machine

open Sys2Proof

/-- The streaming context as the block holds it (`10_state.md` R40, R41, R43). -/
def State.shaContext (s : State) : ShaContext := { h := s.shaH, cnt := s.shaCnt, buf := s.shaBufBytes }

/-- Write the streaming context back, with its VALID flag (`10_state.md` R40 to R43). -/
def State.setShaContext (s : State) (c : ShaContext) (valid : Bool) : State :=
  { s.writeWindow Win.shaBuf c.buf with shaH := c.h, shaCnt := c.cnt, shaValid := valid }

/-- `DIGEST <- d` (`10_state.md` R44). -/
def State.setDigest (s : State) (d : List Byte) : State := s.writeWindow Win.digest d

/-- SHA_INIT (R131). -/
def execShaInit (s : State) : Result := (s.setShaContext freshContext true).complete

/-- SHA_UPDATE (R132). -/
def execShaUpdate (s : State) : Result :=
  if !s.shaValid then s.fail .seq
  else if !inRange s.off s.len then s.fail .range
  else (s.setShaContext (absorb s.shaContext (s.operand s.len)) s.shaValid).complete

/-- SHA_FINAL (R133): the final state words stay in H; the counter and the pending block are cleared. -/
def execShaFinal (s : State) : Result :=
  if !s.shaValid then s.fail .seq
  else
    let h := (finishContext s.shaContext).h
    let cleared : ShaContext := { h := h, cnt := 0, buf := zeroBytes Config.shaBlockBytes }
    ((s.setDigest h.bytes).setShaContext cleared false).complete

/-- SHA_ONESHOT (R135): on a scratch context. -/
def execShaOneShot (s : State) : Result :=
  if !inRange s.off s.len then s.fail .range
  else (s.setDigest (sha256 (s.operand s.len))).complete

/-- HMAC (R136): on scratch contexts. -/
def execHmac (s : State) : Result :=
  if !inRange s.off s.len then s.fail .range
  else if s.hkeyLen.toNat > Config.hkeyBytes then s.fail .range
  else (s.setDigest (hmacSha256 s.hkeyBytes (s.operand s.len))).complete

end Sys2Proof.Machine
end

