-- ==== Sys2Proof/Machine/Dispatch.lean ====
section
/-! DEFINITION. One arm per command: which meaning each runs. -/

namespace Sys2Proof.Machine

open Sys2Proof

def exec (i : Instr) (s : State) : Host.Outcome State Fault Refusal :=
  match i with
  | .nop => Sys2Proof.Machine.execNop s
  | .bnFromBytes rd => Sys2Proof.Machine.execBnFromBytes rd s
  | .bnToBytes rs1 => Sys2Proof.Machine.execBnToBytes rs1 s
  | .bnAdd rd rs1 rs2 => Sys2Proof.Machine.execBnAdd rd rs1 rs2 s
  | .bnSub rd rs1 rs2 => Sys2Proof.Machine.execBnSub rd rs1 rs2 s
  | .bnMul rd rs1 rs2 => Sys2Proof.Machine.execBnMul rd rs1 rs2 s
  | .bnShl rd rs1 => Sys2Proof.Machine.execBnShl rd rs1 s
  | .bnShr rd rs1 => Sys2Proof.Machine.execBnShr rd rs1 s
  | .bnCmp rs1 rs2 => Sys2Proof.Machine.execBnCmp rs1 rs2 s
  | .bnMod rd rs1 rm => Sys2Proof.Machine.execBnMod rd rs1 rm s
  | .bnModMul rd rs1 rs2 rm => Sys2Proof.Machine.execBnModMul rd rs1 rs2 rm s
  | .bnModExp rd rs1 rs2 rm => Sys2Proof.Machine.execBnModExp rd rs1 rs2 rm s
  | .bnBitLen rs1 => Sys2Proof.Machine.execBnBitLen rs1 s
  | .bnBitTest rs1 => Sys2Proof.Machine.execBnBitTest rs1 s
  | .rsaSetKey rs2 rm => Sys2Proof.Machine.execRsaSetKey rs2 rm s
  | .rsaEnc => Sys2Proof.Machine.execRsaEnc s
  | .rsaVerify => Sys2Proof.Machine.execRsaVerify s
  | .aesKeyExp slot => Sys2Proof.Machine.execAesKeyExp slot s
  | .aesEncBlk slot => Sys2Proof.Machine.execAesEncBlk slot s
  | .aesDecBlk slot => Sys2Proof.Machine.execAesDecBlk slot s
  | .aesCbcEnc slot => Sys2Proof.Machine.execAesCbcEnc slot s
  | .aesCbcDec slot => Sys2Proof.Machine.execAesCbcDec slot s
  | .gcmEnc slot => Sys2Proof.Machine.execGcmEnc slot s
  | .gcmDec slot => Sys2Proof.Machine.execGcmDec slot s
  | .shaInit => Sys2Proof.Machine.execShaInit s
  | .shaUpdate => Sys2Proof.Machine.execShaUpdate s
  | .shaFinal => Sys2Proof.Machine.execShaFinal s
  | .shaOneShot => Sys2Proof.Machine.execShaOneShot s
  | .hmac => Sys2Proof.Machine.execHmac s

end Sys2Proof.Machine
end

