-- ==== Sys2Proof/Machine/HostPort.lean ====
section
/-! DEFINITION. The host's accesses to the window (`20_memory.md` R54 to R63, `10_state.md` R22 to R48). -/

namespace Sys2Proof.Machine

open Sys2Proof

/-- The ID constant (`10_state.md` R23). -/
def idWord : Word := 0x43525931

/-- State word `j` of the streaming context (`10_state.md` R40). -/
def Hash8.get (h : Hash8) (j : Nat) : Word :=
  match j with
  | 0 => h.h0
  | 1 => h.h1
  | 2 => h.h2
  | 3 => h.h3
  | 4 => h.h4
  | 5 => h.h5
  | 6 => h.h6
  | _ => h.h7

/-- Replace state word `j`. -/
def Hash8.set (h : Hash8) (j : Nat) (v : Word) : Hash8 :=
  match j with
  | 0 => { h with h0 := v }
  | 1 => { h with h1 := v }
  | 2 => { h with h2 := v }
  | 3 => { h with h3 := v }
  | 4 => { h with h4 := v }
  | 5 => { h with h5 := v }
  | 6 => { h with h6 := v }
  | _ => { h with h7 := v }

/-- Host word `j` of a bignum (`10_state.md` R31: word 0 least significant). -/
def bnWord (v : Bignum) (j : Nat) : Word := v.extractLsb' (32 * j) 32

/-- Replace word `j` of a bignum, leaving the other 127 (`10_state.md` R31). -/
def setBnWord (v : Bignum) (j : Nat) (x : Word) : Bignum :=
  (v &&& ~~~((0xFFFFFFFF : Bignum) <<< (32 * j))) ||| (x.setWidth Config.bnBits <<< (32 * j))

/-- The word of a byte window at window offset `off` (`20_memory.md` R56). -/
def State.byteWindowWord (s : State) (off : Nat) : Word :=
  lanesToWord (Memory.read s.mem off) (Memory.read s.mem (off + 1)) (Memory.read s.mem (off + 2))
    (Memory.read s.mem (off + 3))

/-- The architectural value at a word offset (`10_state.md` R21). Reading changes nothing
(`20_memory.md` R60). -/
def State.windowValue (s : State) (off : Nat) : Word :=
  match locate off with
  | .id => idWord
  | .cmd => s.cmd
  | .status => s.statusWord
  | .intEn => s.intEnWord
  | .intStat => s.intStatWord
  | .result => s.result
  | .dataOff => s.dataOff
  | .dataLen => s.dataLen
  | .bnShamt => s.bnShamt
  | .aadLen => s.aadLen
  | .hkeyLen => s.hkeyLen
  | .ctrl => 0
  | .rsaBits => s.rsaBits.setWidth 32
  | .rsaKlen => s.rsaKlen.setWidth 32
  | .shaH j => s.shaH.get j
  | .shaCntLo => s.shaCnt.extractLsb' 0 32
  | .shaCntHi => s.shaCnt.extractLsb' 32 32
  | .shaCtx => BitVec.setWidth 32 (BitVec.ofBool s.shaValid)
  | .bnWord r j => bnWord (s.bn.get r) j
  | .rkWord k i => (s.slots.get k).rk.toList.getD i 0
  | .nonceWord _ o => s.byteWindowWord o
  | .byteWord o => s.byteWindowWord o
  | .reserved => 0

/-- A host write while idle (`10_state.md` R22 to R48). Read-only and reserved offsets ignore it. -/
def State.idleWrite (s : State) (off : Nat) (v : Word) : State :=
  match locate off with
  | .cmd => { s with cmd := v, busy := true }
  | .intEn => s.writeIntEn v
  | .intStat => s.clearIntStat v
  | .dataOff => { s with dataOff := v }
  | .dataLen => { s with dataLen := v }
  | .bnShamt => { s with bnShamt := v }
  | .aadLen => { s with aadLen := v }
  | .hkeyLen => { s with hkeyLen := v }
  | .ctrl => if v.getLsbD 0 then s.resetBlock else s
  | .shaH j => { s with shaH := s.shaH.set j v }
  | .shaCntLo => { s with shaCnt := s.shaCnt.extractLsb' 32 32 ++ (v &&& 0xFFFFFFF8) }
  | .shaCntHi => { s with shaCnt := v ++ s.shaCnt.extractLsb' 0 32 }
  | .shaCtx => { s with shaValid := v.getLsbD 0 }
  | .bnWord r j => { s with bn := s.bn.set r (setBnWord (s.bn.get r) j v) }
  | .nonceWord k o => (s.writeWindow o (wordToLanes v)).setNu k false
  | .byteWord o => s.writeWindow o (wordToLanes v)
  | .id | .status | .result | .rsaBits | .rsaKlen | .rkWord _ _ | .reserved => s

/-- A host write while a command is in flight: INT_EN, INT_STAT and CTRL take effect as when idle, any
other write is dropped and sets OVR (`20_memory.md` R62). -/
def State.busyWrite (s : State) (off : Nat) (v : Word) : State :=
  match locate off with
  | .intEn => s.writeIntEn v
  | .intStat => s.clearIntStat v
  | .ctrl => if v.getLsbD 0 then s.resetBlock else s
  | _ => { s with intOvr := true }

/-- A host write at a word offset (`20_memory.md` R54). -/
def State.hostWrite (s : State) (off : Nat) (v : Word) : State :=
  if s.busy then s.busyWrite off v else s.idleWrite off v

/-- The registers a host read sees while busy (`20_memory.md` R63). -/
def WindowReg.readableWhileBusy : WindowReg → Bool
  | .id | .cmd | .status | .intEn | .intStat | .ctrl => true
  | _ => false

/-- A host read at a word offset: the architectural value, or while busy, at an offset the engine may be
using, a free value (`20_memory.md` R54, R63). -/
def State.hostRead (s : State) (off : Nat) : State :=
  if s.busy && !(locate off).readableWhileBusy then
    { s with rdata := Config.busyRead s.draws, draws := s.draws + 1 }
  else { s with rdata := s.windowValue off }

/-- What the access does where its shape is one the block defines. -/
def HostAccess.apply (a : HostAccess) (s : State) : State :=
  match a with
  | .read shape => s.hostRead shape.offset
  | .write shape v => s.hostWrite shape.offset v

/-- The width and address of an access. -/
def HostAccess.shape : HostAccess → AccessShape
  | .read shape => shape
  | .write shape _ => shape

/-- One host access: refused where it is not an access to this block (`20_memory.md` R67) or one the block
does not define (R55). -/
def hostAccess (a : HostAccess) (s : State) : Result :=
  if !a.shape.inWindow then .refused .outsideWindow
  else if !(a.shape.wordWide && a.shape.aligned) then .refused .undefinedAccess
  else .next (a.apply s)

end Sys2Proof.Machine
end

