-- ==== Sys2Proof/Machine/Engine.lean ====
section
/-! DEFINITION. The engine's completion step (`60_exceptions.md` R141) and one step of the block among
its environment (`20_memory.md` R69, `70_reset_and_hazards.md` R164). -/

namespace Sys2Proof.Machine

open Sys2Proof

/-- Execute the command latched in CMD; an illegal word ends with E_ILLEGAL (`60_exceptions.md` R141). -/
def runCommand (s : State) : Result :=
  match decode s.cmd with
  | .ok i => exec i s
  | .error _ => s.fail .illegal

/-- The engine's turn: it acts exactly when a command is in flight (`60_exceptions.md` R141); an idle
block waits and keeps all state (R155). -/
def engineTurn (s : State) : Result := if s.busy then runCommand s else .next s

/-- One step: what the environment does next, or, where it does nothing, the engine's turn (log entry 2). -/
def nextStep (s : State) : Result :=
  match s.inputs with
  | [] => engineTurn s
  | .engine :: rest => engineTurn { s with inputs := rest }
  | .host a :: rest => hostAccess a { s with inputs := rest }
  | .hardReset :: rest => .next (State.resetBlock { s with inputs := rest })

/-- A legal or illegal word accepted into CMD (`60_exceptions.md` R140), the engine's turn next. -/
def State.acceptWord (s : State) (w : Word) : State :=
  { s with cmd := w, busy := true, inputs := .engine :: s.inputs }

end Sys2Proof.Machine
end

