-- ==== Sys2Proof/Machine/Step.lean ====
section
/-! DEFINITION. The step of the machine, and where it fetches its next command: CMD, with BUSY set. -/

namespace Sys2Proof.Machine

open Sys2Proof

/-- One step (`20_memory.md` R69). -/
def step (s : State) : Host.Outcome State Fault Refusal := nextStep s

/-- `s` with the command word of the bits `w` accepted and the engine's turn next, so that the very next
step runs it (log entry 9). -/
def State.withFetchWord (s : State) (nbits w : Nat) : State :=
  s.acceptWord (BitVec.ofNat 32 (w % 2 ^ nbits))

end Sys2Proof.Machine
end

