-- ==== Sys2Proof/Safety.lean ====
section
/-! DEFINITION. What the statements call a good state, a defined environment, and the frames of the
commands. -/

namespace Sys2Proof.Machine

open Sys2Proof

/-- A key slot is empty as after reset, or holds the schedule of some 16-byte key (`10_state.md` R37: only
AES_KEYEXP writes a slot). -/
def KeySlot.Consistent (k : KeySlot) : Prop :=
  k = KeySlot.reset ∨ (k.kv = true ∧ ∃ key : List Byte, key.length = 16 ∧ k.rk = keySchedule key)

/-- The invariant of the machine: what every state a run from reset reaches satisfies. -/
structure State.Inv (s : State) : Prop where
  /-- The memory keeps its canonical form. -/
  mem_wf : Memory.wf s.mem
  /-- Nothing is ever stored outside the byte windows (`10_state.md` R21). -/
  mem_windows : ∀ c ∈ s.mem, inByteWindow c.1 = true
  /-- SHA_CNT bits 2:0 are hardwired 0 (`10_state.md` R41). -/
  cnt_whole : s.shaCnt.toNat % 8 = 0
  /-- RSA_BITS is the bit length of RSA_N (`10_state.md` R34). -/
  rsa_bits : s.rsaBits.toNat = bitLength s.rsaN.toNat
  /-- RSA_KLEN is `ceil(RSA_BITS / 8)` (`10_state.md` R34). -/
  rsa_klen : s.rsaKlen.toNat = (s.rsaBits.toNat + 7) / 8
  /-- RSAKV says that the store holds a key, whose modulus is not 0 (`41_rsa.md` R100). -/
  rsa_valid : s.rsaKv = true ↔ s.rsaN ≠ 0
  /-- An empty store holds no exponent (`10_state.md` R34, R52). -/
  rsa_empty : s.rsaKv = false → s.rsaE = 0
  /-- Slot 0 is empty or holds a key's schedule. -/
  slot0 : s.slots.s0.Consistent
  /-- Slot 1 is empty or holds a key's schedule. -/
  slot1 : s.slots.s1.Consistent

/-- Every host access the environment makes is one the block defines (`20_memory.md` R54). -/
def State.InputsDefined (s : State) : Prop :=
  ∀ a : HostAccess, Input.host a ∈ s.inputs → a.shape.wellFormed = true

/-- The offset `a` lies in the `n` bytes from `base` on. -/
def Span (base n a : Nat) : Prop := base ≤ a ∧ a < base + n

/-- `t` is `s` after a successful completion, but for the fields that `written` takes over from `t`
(`60_exceptions.md` R141, R142: "A successful command writes exactly what its rule names"). -/
def FrameWith (written : State) (t : State) : Prop :=
  t = { written with err := .ok, busy := false, intDone := true }

/-- Frame of a command that writes bignum register `rd` only. -/
def FrameBn (rd : BnReg) (s t : State) : Prop :=
  FrameWith { s with bn := t.bn } t ∧ (∀ r, r ≠ rd → t.readBn r = s.readBn r) ∧
    ∀ a, Memory.read t.mem a = Memory.read s.mem a

/-- Frame of a command that writes memory only, at the offsets `stored` only. -/
def FrameMem (stored : Nat → Prop) (s t : State) : Prop :=
  FrameWith { s with mem := t.mem } t ∧ ∀ a, ¬ stored a → Memory.read t.mem a = Memory.read s.mem a

/-- Frame of a command that writes key slot `k` only. -/
def FrameSlot (k : Slot) (s t : State) : Prop :=
  FrameWith { s with slots := t.slots } t ∧ (∀ j, j ≠ k → t.slot j = s.slot j) ∧
    ∀ a, Memory.read t.mem a = Memory.read s.mem a

/-- The command ends with the error `e` and nothing else happens (`60_exceptions.md` R142). -/
def FailsWith (i : Instr) (s : State) (e : ErrCode) : Prop :=
  exec i s = .next { s with err := e, busy := false, intDone := true }

/-- The bits of a command word its opcode's row marks as read (`30_encoding.md` R78, columns RD, RS1, RS2,
RM, SLOT), with the opcode's own. -/
def readMask : Instr → Word
  | .nop | .rsaEnc | .rsaVerify | .shaInit | .shaUpdate | .shaFinal | .shaOneShot | .hmac => 0x000000FF
  | .bnFromBytes _ => 0x000003FF
  | .bnToBytes _ | .bnBitLen _ | .bnBitTest _ => 0x00000CFF
  | .bnAdd _ _ _ | .bnSub _ _ _ | .bnMul _ _ _ => 0x00003FFF
  | .bnShl _ _ | .bnShr _ _ => 0x00000FFF
  | .bnCmp _ _ => 0x00003CFF
  | .bnMod _ _ _ => 0x0000CFFF
  | .bnModMul _ _ _ _ | .bnModExp _ _ _ _ => 0x0000FFFF
  | .rsaSetKey _ _ => 0x0000F0FF
  | .aesKeyExp _ | .aesEncBlk _ | .aesDecBlk _ | .aesCbcEnc _ | .aesCbcDec _ | .gcmEnc _ | .gcmDec _ =>
      0x000100FF

/-- The index of a bignum register, 0 to 3 (`10_state.md` R31). -/
def regIndex : BnReg → Nat
  | .b0 => 0
  | .b1 => 1
  | .b2 => 2
  | .b3 => 3

/-- The index of a key slot, 0 or 1 (`10_state.md` R37). -/
def slotIndex : Slot → Nat
  | .s0 => 0
  | .s1 => 1

end Sys2Proof.Machine
end

