-- ==== Sys2Proof/Certificates/Slice0/Obligations.lean ====
section
/-! DEFINITION. The statements for the provers. In all of them `s.off`, `s.len` and `s.shamt` are DATA_OFF,
DATA_LEN and BN_SHAMT as numbers, and byte `j` of the DATA operand stands at offset
`Win.data + s.off + j` of the memory. -/

open Sys2Proof Sys2Proof.Machine

/-! ### Command words -/

/-- Every command's word decodes to the command (`30_encoding.md` R74, R78, R81). -/
def Obligations.DecodeOfEncodeIsTheCommand : Prop :=
  ∀ i : Instr, decode (encode i) = .ok i

/-- A word that decodes carries its command's opcode and operands in the bits the opcode's row reads, and
a word that agrees with it there is the same command: the ignored fields "may hold any value and do not
change the command's meaning or its error" (`30_encoding.md` R76, R79). -/
def Obligations.DecodeReadsExactlyTheMarkedFields : Prop :=
  ∀ (c : Word) (i : Instr), decode c = .ok i →
    encode i = c &&& readMask i ∧
    ∀ d : Word, d.extractLsb' 17 15 = 0 → d &&& readMask i = c &&& readMask i →
      decode d = .ok i ∧ ∀ s : State, runCommand { s with cmd := d } = exec i { s with cmd := d }

/-- The illegal words are those of `30_encoding.md` R80; one is accepted like any other and completes with
E_ILLEGAL, changing nothing else. -/
def Obligations.IllegalWordsCompleteWithEIllegal : Prop :=
  (∀ c : Word, (∃ e, decode c = .error e) ↔
    (c.extractLsb' 17 15 ≠ 0 ∨
      let op := (c.extractLsb' 0 8).toNat
      (0x01 ≤ op ∧ op ≤ 0x0F) ∨ (0x1D ≤ op ∧ op ≤ 0x1F) ∨ (0x23 ≤ op ∧ op ≤ 0x2F) ∨
        (0x37 ≤ op ∧ op ≤ 0x3F) ∨ (0x45 ≤ op ∧ op ≤ 0xFF))) ∧
  ∀ (s : State) (c : Word), s.busy = false → (∃ e, decode c = .error e) →
    s.hostWrite 0x0004 c = { s with cmd := c, busy := true } ∧
    engineTurn (s.hostWrite 0x0004 c) =
      .next { s with cmd := c, err := .illegal, busy := false, intDone := true }

/-- Command words of `95_test_vectors.md` 2.1, one of each unit and more, two of them with ignored fields set
(vectors E11 and E12), 0x00000035 of its 2.6, and two illegal words. -/
def Obligations.SampleWordsDecodeAsTheSpecSays : Prop :=
  decode 0x00000000 = .ok .nop ∧
  decode 0x0001FF00 = .ok .nop ∧
  decode 0x00000310 = .ok (.bnFromBytes .b3) ∧
  decode 0x00002412 = .ok (.bnAdd .b0 .b1 .b2) ∧
  decode 0x00012412 = .ok (.bnAdd .b0 .b1 .b2) ∧
  decode 0x0000C418 = .ok (.bnMod .b0 .b1 .b3) ∧
  decode 0x0000E41A = .ok (.bnModExp .b0 .b1 .b2 .b3) ∧
  decode 0x00009020 = .ok (.rsaSetKey .b1 .b2) ∧
  decode 0x00010030 = .ok (.aesKeyExp .s1) ∧
  decode 0x00000035 = .ok (.gcmEnc .s0) ∧
  decode 0x00000044 = .ok .hmac ∧
  decode 0x00020000 = .error .reservedBits ∧
  decode 0x0000001D = .error .unassignedOpcode

/-! ### Steps and completion -/

/-- Where CMD holds a command and the engine has the turn, the step is the command's meaning. That the
turn is the engine's when `inputs` is empty is the model's choice (log entry 2). -/
def Obligations.StepRunsTheDecodedCommand : Prop :=
  ∀ (s : State) (i : Instr), s.busy = true → decode s.cmd = .ok i →
    (s.inputs = [] → step s = exec i s) ∧
    ∀ rest, s.inputs = .engine :: rest → step s = exec i { s with inputs := rest }

/-- Every command completes from every state: "Nothing in the block is `stuck`"
(`93_implementation_defined.md`, `60_exceptions.md` R141). -/
def Obligations.EveryCommandCompletes : Prop :=
  ∀ (i : Instr) (s : State), ∃ t, exec i s = .next t ∧ t.busy = false ∧ t.intDone = true

/-- A failed command changes nothing but ERR, BUSY and DONE (`60_exceptions.md` R142). -/
def Obligations.FailedCommandChangesNothing : Prop :=
  ∀ (i : Instr) (s t : State), exec i s = .next t → t.err ≠ .ok →
    t = { s with err := t.err, busy := false, intDone := true }

/-- What no command writes, and which commands write VOK, CMP, RESULT, the RSA key store, the streaming context
with its SHA_BUF, and a key slot: its round keys and KV under AES_KEYEXP only, its NU under AES_KEYEXP and
GCM_ENC (`10_state.md` R20, R25, R28, R34, R37, R38, R50, `20_memory.md` R65, `44_sha.md` R135, R136). -/
def Obligations.CommandsWriteOnlyTheirRegisters : Prop :=
  ∀ (i : Instr) (s t : State), exec i s = .next t →
    t.cmd = s.cmd ∧ t.doneEn = s.doneEn ∧ t.ovrEn = s.ovrEn ∧ t.intOvr = s.intOvr ∧
    t.dataOff = s.dataOff ∧ t.dataLen = s.dataLen ∧ t.bnShamt = s.bnShamt ∧ t.aadLen = s.aadLen ∧
    t.hkeyLen = s.hkeyLen ∧ t.inputs = s.inputs ∧ t.rdata = s.rdata ∧ t.draws = s.draws ∧
    (t.vok ≠ s.vok → i = .rsaVerify) ∧
    (t.cmp ≠ s.cmp → ∃ a b, i = .bnCmp a b) ∧
    (t.result ≠ s.result → i = .rsaEnc ∨ ∃ a, i = .bnBitLen a ∨ i = .bnBitTest a) ∧
    (t.rsaN ≠ s.rsaN ∨ t.rsaE ≠ s.rsaE ∨ t.rsaBits ≠ s.rsaBits ∨ t.rsaKlen ≠ s.rsaKlen ∨
      t.rsaKv ≠ s.rsaKv → ∃ a b, i = .rsaSetKey a b) ∧
    (t.shaValid ≠ s.shaValid → i = .shaInit ∨ i = .shaFinal) ∧
    (t.shaH ≠ s.shaH ∨ t.shaCnt ≠ s.shaCnt ∨ t.shaBufBytes ≠ s.shaBufBytes →
      i = .shaInit ∨ i = .shaUpdate ∨ i = .shaFinal) ∧
    ∀ k,
      ((t.slot k).rk ≠ (s.slot k).rk ∨ (t.slot k).kv ≠ (s.slot k).kv → i = .aesKeyExp k) ∧
      ((t.slot k).nu ≠ (s.slot k).nu → i = .aesKeyExp k ∨ i = .gcmEnc k)

/-! ### Reset and the invariant -/

/-- The state after reset, as the host sees it and where it does not (`10_state.md` R52). -/
def Obligations.ResetValuesAreTheSpecs : Prop :=
  (∀ off, off < 0x8000 → off % 4 = 0 →
    State.reset.windowValue off = if off = 0 then 0x43525931 else 0) ∧
  (∀ a, Memory.read State.reset.mem a = 0) ∧
  (∀ r, State.reset.readBn r = 0) ∧
  (∀ k i, roundKeyWord (State.reset.slot k).rk i = 0 ∧ (State.reset.slot k).kv = false ∧
    (State.reset.slot k).nu = false) ∧
  State.reset.rsaN = 0 ∧ State.reset.rsaE = 0 ∧ State.reset.rsaKv = false ∧
  State.reset.shaValid = false ∧ State.reset.busy = false ∧ State.reset.irq = false

/-- Soft and hard reset return the whole block to its reset state, also while a command is in flight,
which is abandoned; a CTRL write with bit 0 = 0 has no effect; CTRL reads 0 and ID its constant
(`10_state.md` R30, `70_reset_and_hazards.md` R156, R157). That `inputs`, `rdata` and `draws` stay is the
model's choice (log entry 5). -/
def Obligations.ResetsReturnTheBlockToReset : Prop :=
  (∀ (s : State) (v : Word), v.getLsbD 0 = true →
    s.hostWrite 0x002C v = { State.reset with inputs := s.inputs, rdata := s.rdata, draws := s.draws }) ∧
  (∀ (s : State) (v : Word), v.getLsbD 0 = false → s.hostWrite 0x002C v = s) ∧
  (∀ (s : State) rest, s.inputs = .hardReset :: rest →
    step s = .next { State.reset with inputs := rest, rdata := s.rdata, draws := s.draws }) ∧
  ∀ s : State, s.windowValue 0x002C = 0 ∧ s.windowValue 0x0000 = 0x43525931

/-- The reset state satisfies the invariant. -/
def Obligations.InvHoldsAtReset : Prop := State.reset.Inv

/-- Every step keeps the invariant: canonical memory inside the byte windows, the hardwired bits of
SHA_CNT, an RSA store that is empty or holds a key with its lengths, and key slots that are empty or hold
a key's schedule (`10_state.md` R21, R34, R37, R41). -/
def Obligations.StepKeepsInv : Prop :=
  ∀ s t : State, s.Inv → step s = .next t → t.Inv

/-! ### Control -/

/-- NOP completes and changes nothing else (`45_control.md` R137). -/
def Obligations.NopChangesNothing : Prop :=
  ∀ s : State, exec .nop s = .next { s with err := .ok, busy := false, intDone := true }

/-! ### Bignum -/

/-- BN_FROMBYTES (`40_bignum.md` R86): the checks in order, and the big-endian value of the operand. -/
def Obligations.FromBytesGivesTheBigEndianValue : Prop :=
  ∀ (rd : BnReg) (s : State),
    (16384 < s.off + s.len → FailsWith (.bnFromBytes rd) s .range) ∧
    (s.off + s.len ≤ 16384 → 512 < s.len → FailsWith (.bnFromBytes rd) s .capacity) ∧
    (s.off + s.len ≤ 16384 → s.len ≤ 512 →
      ∃ t, exec (.bnFromBytes rd) s = .next t ∧ FrameBn rd s t ∧
        t.readBn rd =
          ∑ j ∈ Finset.range s.len,
            (Memory.read s.mem (Win.data + s.off + j)).toNat * 256 ^ (s.len - 1 - j))

/-- BN_TOBYTES (`40_bignum.md` R87): the checks in order, and the bytes stored. -/
def Obligations.ToBytesStoresThePaddedBytes : Prop :=
  ∀ (rs1 : BnReg) (s : State),
    (16384 < s.off + s.len → FailsWith (.bnToBytes rs1) s .range) ∧
    (s.off + s.len ≤ 16384 → 512 < s.len → FailsWith (.bnToBytes rs1) s .capacity) ∧
    (s.off + s.len ≤ 16384 → s.len ≤ 512 → 256 ^ s.len ≤ s.readBn rs1 →
      FailsWith (.bnToBytes rs1) s .overflow) ∧
    (s.off + s.len ≤ 16384 → s.len ≤ 512 → s.readBn rs1 < 256 ^ s.len →
      ∃ t, exec (.bnToBytes rs1) s = .next t ∧ FrameMem (Span (Win.data + s.off) s.len) s t ∧
        ∀ j, j < s.len →
          (Memory.read t.mem (Win.data + s.off + j)).toNat = s.readBn rs1 / 256 ^ (s.len - 1 - j) % 256)

/-- BN_FROMBYTES then BN_TOBYTES with the same operands leaves every byte as it was (`40_bignum.md` R87). -/
def Obligations.FromBytesToBytesRoundTrip : Prop :=
  ∀ (r : BnReg) (s : State), s.off + s.len ≤ 16384 → s.len ≤ 512 →
    ∃ t u, exec (.bnFromBytes r) s = .next t ∧ exec (.bnToBytes r) t = .next u ∧ u.err = .ok ∧
      ∀ a, Memory.read u.mem a = Memory.read s.mem a

/-- BN_ADD, BN_SUB and BN_MUL (`40_bignum.md` R88 to R90): exact results, or the error and no write. -/
def Obligations.AddSubMulAreExactOrFail : Prop :=
  ∀ (rd rs1 rs2 : BnReg) (s : State),
    (2 ^ 4096 ≤ s.readBn rs1 + s.readBn rs2 → FailsWith (.bnAdd rd rs1 rs2) s .overflow) ∧
    (s.readBn rs1 + s.readBn rs2 < 2 ^ 4096 →
      ∃ t, exec (.bnAdd rd rs1 rs2) s = .next t ∧ FrameBn rd s t ∧
        t.readBn rd = s.readBn rs1 + s.readBn rs2) ∧
    (s.readBn rs1 < s.readBn rs2 → FailsWith (.bnSub rd rs1 rs2) s .underflow) ∧
    (s.readBn rs2 ≤ s.readBn rs1 →
      ∃ t, exec (.bnSub rd rs1 rs2) s = .next t ∧ FrameBn rd s t ∧
        t.readBn rd + s.readBn rs2 = s.readBn rs1) ∧
    (2 ^ 4096 ≤ s.readBn rs1 * s.readBn rs2 → FailsWith (.bnMul rd rs1 rs2) s .overflow) ∧
    (s.readBn rs1 * s.readBn rs2 < 2 ^ 4096 →
      ∃ t, exec (.bnMul rd rs1 rs2) s = .next t ∧ FrameBn rd s t ∧
        t.readBn rd = s.readBn rs1 * s.readBn rs2)

/-- BN_SHL (`40_bignum.md` R91): the pseudocode's test on `a * 2^s`, and its corner case's test on the bit
length. -/
def Obligations.ShlMultipliesOrOverflows : Prop :=
  ∀ (rd rs1 : BnReg) (s : State),
    (2 ^ 4096 ≤ s.readBn rs1 * 2 ^ s.shamt → FailsWith (.bnShl rd rs1) s .overflow) ∧
    (s.readBn rs1 * 2 ^ s.shamt < 2 ^ 4096 →
      ∃ t, exec (.bnShl rd rs1) s = .next t ∧ FrameBn rd s t ∧
        t.readBn rd = s.readBn rs1 * 2 ^ s.shamt) ∧
    (2 ^ 4096 ≤ s.readBn rs1 * 2 ^ s.shamt ↔
      s.readBn rs1 ≠ 0 ∧ 4096 < bitLength (s.readBn rs1) + s.shamt)

/-- BN_SHR (`40_bignum.md` R92), with its corner case. -/
def Obligations.ShrDivides : Prop :=
  ∀ (rd rs1 : BnReg) (s : State),
    ∃ t, exec (.bnShr rd rs1) s = .next t ∧ FrameBn rd s t ∧
      t.readBn rd = s.readBn rs1 / 2 ^ s.shamt ∧ (4096 ≤ s.shamt → t.readBn rd = 0)

/-- BN_CMP (`40_bignum.md` R93): bits 3:2 of STATUS tell equal, less and greater. -/
def Obligations.CmpTellsTheOrder : Prop :=
  ∀ (rs1 rs2 : BnReg) (s : State),
    ∃ t, exec (.bnCmp rs1 rs2) s = .next t ∧
      t = { s with cmp := t.cmp, err := .ok, busy := false, intDone := true } ∧
      (s.readBn rs1 = s.readBn rs2 → (t.windowValue 0x0008).extractLsb' 2 2 = 0) ∧
      (s.readBn rs1 < s.readBn rs2 → (t.windowValue 0x0008).extractLsb' 2 2 = 1) ∧
      (s.readBn rs2 < s.readBn rs1 → (t.windowValue 0x0008).extractLsb' 2 2 = 2)

/-- BN_BITLEN (`40_bignum.md` R94): RESULT is the least `n` with `v < 2^n` (`00_scope.md` R14), at most 4096.
BN_BITTEST (R95): RESULT is bit BN_SHAMT of the value, 0 from 4096 on. -/
def Obligations.BitLenAndBitTestGiveResult : Prop :=
  ∀ (rs1 : BnReg) (s : State),
    (∃ t, exec (.bnBitLen rs1) s = .next t ∧
      t = { s with result := t.result, err := .ok, busy := false, intDone := true } ∧
      (∀ n, s.readBn rs1 < 2 ^ n ↔ t.result.toNat ≤ n) ∧ t.result.toNat ≤ 4096) ∧
    ∃ t, exec (.bnBitTest rs1) s = .next t ∧
      t = { s with result := t.result, err := .ok, busy := false, intDone := true } ∧
      t.result.toNat = s.readBn rs1 / 2 ^ s.shamt % 2 ∧ (4096 ≤ s.shamt → t.result = 0)

/-- The shift-and-subtract reduction of `40_bignum.md` R96 is `a mod m`. -/
def Obligations.ReduceLoopIsMod : Prop :=
  ∀ a m : Nat, 1 ≤ m → reduceBySubtraction a m = a % m

/-- BN_MOD and BN_MODMUL (`40_bignum.md` R97, R98): the product is exact before it is reduced. -/
def Obligations.ModAndModMulGiveRemainders : Prop :=
  ∀ (rd rs1 rs2 rm : BnReg) (s : State),
    (s.readBn rm = 0 →
      FailsWith (.bnMod rd rs1 rm) s .divZero ∧ FailsWith (.bnModMul rd rs1 rs2 rm) s .divZero) ∧
    (s.readBn rm ≠ 0 →
      (∃ t, exec (.bnMod rd rs1 rm) s = .next t ∧ FrameBn rd s t ∧
        t.readBn rd = s.readBn rs1 % s.readBn rm) ∧
      ∃ t, exec (.bnModMul rd rs1 rs2 rm) s = .next t ∧ FrameBn rd s t ∧
        t.readBn rd = s.readBn rs1 * s.readBn rs2 % s.readBn rm)

/-- BN_MODEXP (`40_bignum.md` R99): the square-and-multiply loop gives `a^e mod m`, with `0^0 = 1` and 0 for
`m = 1`. -/
def Obligations.ModExpGivesThePowerModulo : Prop :=
  ∀ (rd rs1 rs2 rm : BnReg) (s : State),
    (s.readBn rm = 0 → FailsWith (.bnModExp rd rs1 rs2 rm) s .divZero) ∧
    (s.readBn rm ≠ 0 →
      ∃ t, exec (.bnModExp rd rs1 rs2 rm) s = .next t ∧ FrameBn rd s t ∧
        t.readBn rd = s.readBn rs1 ^ s.readBn rs2 % s.readBn rm)

/-! ### RSA -/

/-- RSA_SETKEY (`41_rsa.md` R100): the store, RSA_BITS and RSA_KLEN. -/
def Obligations.RsaSetKeyLoadsTheStore : Prop :=
  ∀ (rs2 rm : BnReg) (s : State),
    (s.readBn rm = 0 → FailsWith (.rsaSetKey rs2 rm) s .key) ∧
    (s.readBn rm ≠ 0 →
      ∃ t, exec (.rsaSetKey rs2 rm) s = .next t ∧
        t = { s with
          rsaN := t.rsaN, rsaE := t.rsaE, rsaBits := t.rsaBits, rsaKlen := t.rsaKlen, rsaKv := true
          err := .ok, busy := false, intDone := true } ∧
        t.rsaN.toNat = s.readBn rm ∧ t.rsaE.toNat = s.readBn rs2 ∧
        (∀ n, s.readBn rm < 2 ^ n ↔ t.rsaBits.toNat ≤ n) ∧
        t.rsaKlen.toNat = (t.rsaBits.toNat + 7) / 8)

/-- The encryption block has `k` bytes and its value is below the modulus (`41_rsa.md` R102). -/
def Obligations.EncryptionBlockBelowModulus : Prop :=
  ∀ (s : State) (ps msg : List Byte), s.Inv → s.rsaKv = true → msg.length + 11 ≤ s.rsaKlen.toNat →
    ps.length = s.rsaKlen.toNat - msg.length - 3 →
    (encryptionBlock ps msg).length = s.rsaKlen.toNat ∧
      fromBytes (encryptionBlock ps msg) < s.rsaN.toNat

/-- RSA_ENC (`41_rsa.md` R103): the checks in order, then `k` bytes of `from_bytes(EM)^e mod n` over the
message and RESULT = `k`. -/
def Obligations.RsaEncGivesThePaddedPower : Prop :=
  ∀ s : State, s.Inv →
    let k := s.rsaKlen.toNat
    let ps := Memory.readBytes s.mem Win.psBuf (k - s.len - 3)
    let msg := Memory.readBytes s.mem (Win.data + s.off) s.len
    (s.rsaKv = false → FailsWith .rsaEnc s .noKey) ∧
    (s.rsaKv = true → 16384 < s.off + max s.len k → FailsWith .rsaEnc s .range) ∧
    (s.rsaKv = true → s.off + max s.len k ≤ 16384 → k < s.len + 11 → FailsWith .rsaEnc s .msgLen) ∧
    (s.rsaKv = true → s.off + max s.len k ≤ 16384 → s.len + 11 ≤ k → (0 : Byte) ∈ ps →
      FailsWith .rsaEnc s .padZero) ∧
    (s.rsaKv = true → s.off + max s.len k ≤ 16384 → s.len + 11 ≤ k → (0 : Byte) ∉ ps →
      ∃ t, exec .rsaEnc s = .next t ∧
        t = { s with mem := t.mem, result := t.result, err := .ok, busy := false, intDone := true } ∧
        (∀ a, ¬ Span (Win.data + s.off) k a → Memory.read t.mem a = Memory.read s.mem a) ∧
        t.result.toNat = k ∧
        fromBytes (Memory.readBytes t.mem (Win.data + s.off) k) =
          fromBytes ([0x00, 0x02] ++ ps ++ [0x00] ++ msg) ^ s.rsaE.toNat % s.rsaN.toNat)

/-- RSA_VERIFY (`41_rsa.md` R105): the checks in order, then VOK tells whether `s^e mod n` is the value of
the expected block; a mismatch is no error. -/
def Obligations.RsaVerifyTellsTheBlockMatch : Prop :=
  ∀ s : State, s.Inv →
    let k := s.rsaKlen.toNat
    let sig := fromBytes (Memory.readBytes s.mem (Win.data + s.off) s.len)
    let block := [0x00, 0x01] ++ List.replicate (k - 54) (0xFF : Byte) ++ [0x00] ++
      [0x30, 0x31, 0x30, 0x0d, 0x06, 0x09, 0x60, 0x86, 0x48, 0x01, 0x65, 0x03, 0x04, 0x02, 0x01, 0x05,
        0x00, 0x04, 0x20] ++ Memory.readBytes s.mem Win.digest 32
    (s.rsaKv = false → FailsWith .rsaVerify s .noKey) ∧
    (s.rsaKv = true → 16384 < s.off + s.len → FailsWith .rsaVerify s .range) ∧
    (s.rsaKv = true → s.off + s.len ≤ 16384 → 512 < s.len → FailsWith .rsaVerify s .capacity) ∧
    (s.rsaKv = true → s.off + s.len ≤ 16384 → s.len ≤ 512 →
      ∃ t, exec .rsaVerify s = .next t ∧
        t = { s with vok := t.vok, err := .ok, busy := false, intDone := true } ∧
        (t.vok = true ↔ 62 ≤ k ∧ sig ^ s.rsaE.toNat % s.rsaN.toNat = fromBytes block))

/-! ### AES -/

/-- SBOX is the affine transform of the inverse in GF(2^8), 0 standing for its own inverse, and INV_SBOX
its inverse permutation (`42_aes.md` R107, R108). -/
def Obligations.SboxIsAffineInverse : Prop :=
  (∀ x y : Byte, (x = 0 ∧ y = 0) ∨ gfMul x y = 1 →
    sbox x = y ^^^ y.rotateLeft 1 ^^^ y.rotateLeft 2 ^^^ y.rotateLeft 3 ^^^ y.rotateLeft 4 ^^^ 0x63) ∧
  (∀ x : Byte, x = 0 ∨ ∃ y, gfMul x y = 1) ∧
  ∀ x : Byte, invSbox (sbox x) = x ∧ sbox (invSbox x) = x

/-- AES_KEYEXP (`42_aes.md` R112): the first four words are the key, the others follow the recurrence; KV is
set, NU cleared, nothing else changes. -/
def Obligations.AesKeyExpFollowsTheRecurrence : Prop :=
  ∀ (k : Slot) (s : State),
    ∃ t, exec (.aesKeyExp k) s = .next t ∧ FrameSlot k s t ∧ (t.slot k).kv = true ∧ (t.slot k).nu = false ∧
      (∀ i, i < 4 → roundKeyWord (t.slot k).rk i =
        Memory.read s.mem (Win.aesKey + 4 * i) ++ Memory.read s.mem (Win.aesKey + 4 * i + 1) ++
          Memory.read s.mem (Win.aesKey + 4 * i + 2) ++ Memory.read s.mem (Win.aesKey + 4 * i + 3)) ∧
      ∀ i, 4 ≤ i → i < 44 → roundKeyWord (t.slot k).rk i =
        roundKeyWord (t.slot k).rk (i - 4) ^^^
          (if i % 4 = 0 then
            subWord ((roundKeyWord (t.slot k).rk (i - 1)).rotateLeft 8) ^^^
              ([0x01, 0x02, 0x04, 0x08, 0x10, 0x20, 0x40, 0x80, 0x1b, 0x36].getD (i / 4 - 1) (0 : Word) <<< 24)
          else roundKeyWord (t.slot k).rk (i - 1))

/-- Decryption inverts encryption for every key and block (`42_aes.md` R111). -/
def Obligations.AesDecryptInvertsEncrypt : Prop :=
  ∀ (w : RoundKeys) (b : List Byte), b.length = 16 → aesDecrypt w (aesEncrypt w b) = b

/-- AES_ENCBLK (`42_aes.md` R113). -/
def Obligations.AesEncBlkEncryptsInPlace : Prop :=
  ∀ (k : Slot) (s : State),
    ((s.slot k).kv = false → FailsWith (.aesEncBlk k) s .noKey) ∧
    ((s.slot k).kv = true → 16384 < s.off + 16 → FailsWith (.aesEncBlk k) s .range) ∧
    ((s.slot k).kv = true → s.off + 16 ≤ 16384 →
      ∃ t, exec (.aesEncBlk k) s = .next t ∧ FrameMem (Span (Win.data + s.off) 16) s t ∧
        Memory.readBytes t.mem (Win.data + s.off) 16 =
          aesEncrypt (s.slot k).rk (Memory.readBytes s.mem (Win.data + s.off) 16))

/-- AES_DECBLK (`42_aes.md` R114). -/
def Obligations.AesDecBlkDecryptsInPlace : Prop :=
  ∀ (k : Slot) (s : State),
    ((s.slot k).kv = false → FailsWith (.aesDecBlk k) s .noKey) ∧
    ((s.slot k).kv = true → 16384 < s.off + 16 → FailsWith (.aesDecBlk k) s .range) ∧
    ((s.slot k).kv = true → s.off + 16 ≤ 16384 →
      ∃ t, exec (.aesDecBlk k) s = .next t ∧ FrameMem (Span (Win.data + s.off) 16) s t ∧
        Memory.readBytes t.mem (Win.data + s.off) 16 =
          aesDecrypt (s.slot k).rk (Memory.readBytes s.mem (Win.data + s.off) 16))

/-- AES_CBCENC (`42_aes.md` R115): each block is the encryption of the plaintext XORed with the block before
it, AES_IV standing before the first; AES_IV takes the last block. -/
def Obligations.AesCbcEncChainsTheBlocks : Prop :=
  ∀ (k : Slot) (s : State),
    ((s.slot k).kv = false → FailsWith (.aesCbcEnc k) s .noKey) ∧
    ((s.slot k).kv = true → 16384 < s.off + s.len → FailsWith (.aesCbcEnc k) s .range) ∧
    ((s.slot k).kv = true → s.off + s.len ≤ 16384 → s.len % 16 ≠ 0 → FailsWith (.aesCbcEnc k) s .align) ∧
    ((s.slot k).kv = true → s.off + s.len ≤ 16384 → s.len % 16 = 0 →
      ∃ t, exec (.aesCbcEnc k) s = .next t ∧
        FrameMem (fun a => Span (Win.data + s.off) s.len a ∨ Span Win.aesIv 16 a) s t ∧
        (∀ j, j < s.len / 16 →
          Memory.readBytes t.mem (Win.data + s.off + 16 * j) 16 =
            aesEncrypt (s.slot k).rk (xorBytes (Memory.readBytes s.mem (Win.data + s.off + 16 * j) 16)
              (if j = 0 then Memory.readBytes s.mem Win.aesIv 16
                else Memory.readBytes t.mem (Win.data + s.off + 16 * (j - 1)) 16))) ∧
        Memory.readBytes t.mem Win.aesIv 16 =
          if s.len = 0 then Memory.readBytes s.mem Win.aesIv 16
          else Memory.readBytes t.mem (Win.data + s.off + s.len - 16) 16)

/-- AES_CBCDEC (`42_aes.md` R116): each block is the decryption of the ciphertext XORed with the ciphertext
block before it, AES_IV standing before the first; AES_IV takes the last ciphertext block read. -/
def Obligations.AesCbcDecUnchainsTheBlocks : Prop :=
  ∀ (k : Slot) (s : State),
    ((s.slot k).kv = false → FailsWith (.aesCbcDec k) s .noKey) ∧
    ((s.slot k).kv = true → 16384 < s.off + s.len → FailsWith (.aesCbcDec k) s .range) ∧
    ((s.slot k).kv = true → s.off + s.len ≤ 16384 → s.len % 16 ≠ 0 → FailsWith (.aesCbcDec k) s .align) ∧
    ((s.slot k).kv = true → s.off + s.len ≤ 16384 → s.len % 16 = 0 →
      ∃ t, exec (.aesCbcDec k) s = .next t ∧
        FrameMem (fun a => Span (Win.data + s.off) s.len a ∨ Span Win.aesIv 16 a) s t ∧
        (∀ j, j < s.len / 16 →
          Memory.readBytes t.mem (Win.data + s.off + 16 * j) 16 =
            xorBytes (aesDecrypt (s.slot k).rk (Memory.readBytes s.mem (Win.data + s.off + 16 * j) 16))
              (if j = 0 then Memory.readBytes s.mem Win.aesIv 16
                else Memory.readBytes s.mem (Win.data + s.off + 16 * (j - 1)) 16)) ∧
        Memory.readBytes t.mem Win.aesIv 16 =
          if s.len = 0 then Memory.readBytes s.mem Win.aesIv 16
          else Memory.readBytes s.mem (Win.data + s.off + s.len - 16) 16)

/-- AES_CBCDEC of AES_CBCENC's output, with the same slot and AES_IV written back, gives the original
plaintext (`42_aes.md` R116). -/
def Obligations.CbcDecUndoesCbcEnc : Prop :=
  ∀ (k : Slot) (s : State), (s.slot k).kv = true → s.off + s.len ≤ 16384 → s.len % 16 = 0 →
    ∃ t u, exec (.aesCbcEnc k) s = .next t ∧
      exec (.aesCbcDec k) (t.writeWindow Win.aesIv (Memory.readBytes s.mem Win.aesIv 16)) = .next u ∧
      u.err = .ok ∧
      Memory.readBytes u.mem (Win.data + s.off) s.len = Memory.readBytes s.mem (Win.data + s.off) s.len

/-! ### GCM -/

/-- The GHASH product is linear in each argument, and the block with first bit 1 and the rest 0 is its
identity (`43_gcm.md` R119). -/
def Obligations.GhashProductIsBilinear : Prop :=
  (∀ x y z : Block, ghashMul (x ^^^ y) z = ghashMul x z ^^^ ghashMul y z) ∧
  (∀ x y z : Block, ghashMul x (y ^^^ z) = ghashMul x y ^^^ ghashMul x z) ∧
  ∀ y : Block, ghashMul (1 <<< 127) y = y

/-- GCM_ENC (`43_gcm.md` R124): the checks in order; byte `j` of the ciphertext is the plaintext byte XORed
with byte `j mod 16` of the encrypted counter block `IV ‖ 2 + j div 16` (R121), TAG is the tag over AAD and
ciphertext (R122), and NU is set. -/
def Obligations.GcmEncEncryptsTagsAndMarksTheNonce : Prop :=
  ∀ (k : Slot) (s : State),
    let w := (s.slot k).rk
    let iv := Memory.readBytes s.mem (Win.gcmIv k) 12
    let aad := Memory.readBytes s.mem Win.aad s.aadLen.toNat
    ((s.slot k).kv = false → FailsWith (.gcmEnc k) s .noKey) ∧
    ((s.slot k).kv = true → (s.slot k).nu = true → FailsWith (.gcmEnc k) s .nonce) ∧
    ((s.slot k).kv = true → (s.slot k).nu = false → 16384 < s.off + s.len ∨ 64 < s.aadLen.toNat →
      FailsWith (.gcmEnc k) s .range) ∧
    ((s.slot k).kv = true → (s.slot k).nu = false → s.off + s.len ≤ 16384 → s.aadLen.toNat ≤ 64 →
      ∃ t, exec (.gcmEnc k) s = .next t ∧
        t = { s with mem := t.mem, slots := t.slots, err := .ok, busy := false, intDone := true } ∧
        t.slot k = { s.slot k with nu := true } ∧ (∀ j, j ≠ k → t.slot j = s.slot j) ∧
        (∀ a, ¬ Span (Win.data + s.off) s.len a → ¬ Span Win.tag 16 a →
          Memory.read t.mem a = Memory.read s.mem a) ∧
        (∀ j, j < s.len →
          Memory.read t.mem (Win.data + s.off + j) =
            Memory.read s.mem (Win.data + s.off + j) ^^^
              (aesEncrypt w (iv ++ toBytes (2 + j / 16) 4)).getD (j % 16) 0) ∧
        Memory.readBytes t.mem Win.tag 16 =
          gcmTag w iv aad (Memory.readBytes t.mem (Win.data + s.off) s.len))

/-- GCM_DEC (`43_gcm.md` R125): the checks in order; the plaintext is written only where all 16 tag bytes are
equal. -/
def Obligations.GcmDecReleasesOnlyOnATagMatch : Prop :=
  ∀ (k : Slot) (s : State),
    let w := (s.slot k).rk
    let iv := Memory.readBytes s.mem (Win.gcmIv k) 12
    let aad := Memory.readBytes s.mem Win.aad s.aadLen.toNat
    let expected := gcmTag w iv aad (Memory.readBytes s.mem (Win.data + s.off) s.len)
    ((s.slot k).kv = false → FailsWith (.gcmDec k) s .noKey) ∧
    ((s.slot k).kv = true → 16384 < s.off + s.len ∨ 64 < s.aadLen.toNat →
      FailsWith (.gcmDec k) s .range) ∧
    ((s.slot k).kv = true → s.off + s.len ≤ 16384 → s.aadLen.toNat ≤ 64 →
      Memory.readBytes s.mem Win.tag 16 ≠ expected → FailsWith (.gcmDec k) s .tag) ∧
    ((s.slot k).kv = true → s.off + s.len ≤ 16384 → s.aadLen.toNat ≤ 64 →
      Memory.readBytes s.mem Win.tag 16 = expected →
      ∃ t, exec (.gcmDec k) s = .next t ∧ FrameMem (Span (Win.data + s.off) s.len) s t ∧
        ∀ j, j < s.len →
          Memory.read t.mem (Win.data + s.off + j) =
            Memory.read s.mem (Win.data + s.off + j) ^^^
              (aesEncrypt w (iv ++ toBytes (2 + j / 16) 4)).getD (j % 16) 0)

/-- GCM_DEC of GCM_ENC's output gives back the plaintext, and with any other tag it fails with E_TAG and
releases nothing (`43_gcm.md` R125, `60_exceptions.md` R142). -/
def Obligations.GcmRoundTripAndTamper : Prop :=
  ∀ (k : Slot) (s : State), (s.slot k).kv = true → (s.slot k).nu = false →
    s.off + s.len ≤ 16384 → s.aadLen.toNat ≤ 64 →
    ∃ t u, exec (.gcmEnc k) s = .next t ∧ exec (.gcmDec k) t = .next u ∧ u.err = .ok ∧
      Memory.readBytes u.mem (Win.data + s.off) s.len = Memory.readBytes s.mem (Win.data + s.off) s.len ∧
      ∀ tag : List Byte, tag.length = 16 → tag ≠ Memory.readBytes t.mem Win.tag 16 →
        FailsWith (.gcmDec k) (t.writeWindow Win.tag tag) .tag

/-- Nonce discipline (`43_gcm.md` R123): a successful GCM_ENC sets NU and the next one fails E_NONCE; a host
write to any word of GCM_IVs, AES_KEYEXP and reset clear it; GCM_DEC neither reads nor changes it. -/
def Obligations.NonceUsedFlagDiscipline : Prop :=
  (∀ (k : Slot) (s t : State), exec (.gcmEnc k) s = .next t → t.err = .ok →
    (t.slot k).nu = true ∧ FailsWith (.gcmEnc k) t .nonce) ∧
  (∀ (k : Slot) (s : State) (off : Nat) (v : Word), s.busy = false → off % 4 = 0 →
    Span (Win.gcmIv k) 12 off →
    ((s.hostWrite off v).slot k).nu = false ∧ ∀ j, j ≠ k → (s.hostWrite off v).slot j = s.slot j) ∧
  (∀ (k : Slot) (s t : State), exec (.aesKeyExp k) s = .next t → (t.slot k).nu = false) ∧
  (∀ k, (State.reset.slot k).nu = false) ∧
  (∀ (k j : Slot) (s t : State), exec (.gcmDec k) s = .next t →
    t.slots = s.slots ∧ ∀ b, exec (.gcmDec k) (s.setNu j b) = .next (t.setNu j b))

/-! ### SHA-256 and HMAC -/

/-- SHA_INIT (`44_sha.md` R131). -/
def Obligations.ShaInitStartsAContext : Prop :=
  ∀ s : State, ∃ t, exec .shaInit s = .next t ∧
    t = { s with
      mem := t.mem, shaH := t.shaH, shaCnt := 0, shaValid := true
      err := .ok, busy := false, intDone := true } ∧
    t.shaH = ⟨0x6a09e667, 0xbb67ae85, 0x3c6ef372, 0xa54ff53a, 0x510e527f, 0x9b05688c, 0x1f83d9ab,
      0x5be0cd19⟩ ∧
    ∀ a, Memory.read t.mem a = if Win.shaBuf ≤ a ∧ a < Win.shaBuf + 64 then 0 else Memory.read s.mem a

/-- SHA_UPDATE (`44_sha.md` R132): the checks in order; the counter grows by 8 bits a byte modulo 2^64
(R129), and the context is the one byte-by-byte absorption gives. -/
def Obligations.ShaUpdateAbsorbsTheOperand : Prop :=
  ∀ s : State,
    (s.shaValid = false → FailsWith .shaUpdate s .seq) ∧
    (s.shaValid = true → 16384 < s.off + s.len → FailsWith .shaUpdate s .range) ∧
    (s.shaValid = true → s.off + s.len ≤ 16384 →
      ∃ t, exec .shaUpdate s = .next t ∧
        t = { s with
          mem := t.mem, shaH := t.shaH, shaCnt := t.shaCnt, err := .ok, busy := false, intDone := true } ∧
        (∀ a, ¬ Span Win.shaBuf 64 a → Memory.read t.mem a = Memory.read s.mem a) ∧
        t.shaCnt.toNat = (s.shaCnt.toNat + 8 * s.len) % 2 ^ 64 ∧
        t.shaContext = absorb s.shaContext (Memory.readBytes s.mem (Win.data + s.off) s.len))

/-- SHA_UPDATE of a message in two pieces, split at any byte, gives the context of one SHA_UPDATE of the
whole (`44_sha.md` R132). -/
def Obligations.ShaUpdateSplitsAnywhere : Prop :=
  ∀ (s : State) (off n m : Nat), s.shaValid = true → off + n + m ≤ 16384 →
    ∃ t u v,
      exec .shaUpdate { s with dataOff := BitVec.ofNat 32 off, dataLen := BitVec.ofNat 32 (n + m) } = .next v ∧
      exec .shaUpdate { s with dataOff := BitVec.ofNat 32 off, dataLen := BitVec.ofNat 32 n } = .next t ∧
      exec .shaUpdate
        { t with dataOff := BitVec.ofNat 32 (off + n), dataLen := BitVec.ofNat 32 m } = .next u ∧
      u.err = .ok ∧ v.err = .ok ∧ u.shaContext = v.shaContext

/-- What SHA_BUF holds from SHA_PEND on never matters (`10_state.md` R43, `44_sha.md` R129). -/
def Obligations.StaleBytesDoNotMatter : Prop :=
  ∀ (c d : ShaContext) (msg : List Byte), c.h = d.h → c.cnt = d.cnt → c.buf.length = 64 →
    d.buf.length = 64 → (∀ j, j < shaPending c.cnt → c.buf.getD j 0 = d.buf.getD j 0) →
    (finishContext (absorb c msg)).h = (finishContext (absorb d msg)).h

/-- The padding fills the current block where `p ≤ 55` and one more where `p ≥ 56`, and ends on a block
boundary (`44_sha.md` R130). -/
def Obligations.PaddingEndsOnABlock : Prop :=
  ∀ c : ShaContext,
    (shaPending c.cnt ≤ 55 → shaPending c.cnt + (shaPadding c.cnt).length = 64) ∧
    (56 ≤ shaPending c.cnt → shaPending c.cnt + (shaPadding c.cnt).length = 128) ∧
    shaPending (finishContext c).cnt = 0

/-- SHA_FINAL (`44_sha.md` R133): the digest is the final state words, high byte first; the counter, the
pending block and VALID are cleared, so a second one fails E_SEQ. -/
def Obligations.ShaFinalGivesTheDigestOnce : Prop :=
  ∀ s : State,
    (s.shaValid = false → FailsWith .shaFinal s .seq) ∧
    (s.shaValid = true →
      ∃ t, exec .shaFinal s = .next t ∧
        t = { s with
          mem := t.mem, shaH := t.shaH, shaCnt := 0, shaValid := false
          err := .ok, busy := false, intDone := true } ∧
        t.shaH = (finishContext s.shaContext).h ∧
        (∀ j, j < 32 → Memory.read t.mem (Win.digest + j) =
          (t.shaH.get (j / 4)).extractLsb' (8 * (3 - j % 4)) 8) ∧
        (∀ j, j < 64 → Memory.read t.mem (Win.shaBuf + j) = 0) ∧
        (∀ a, ¬ Span Win.digest 32 a → ¬ Span Win.shaBuf 64 a →
          Memory.read t.mem a = Memory.read s.mem a) ∧
        FailsWith .shaFinal t .seq ∧ FailsWith .shaUpdate t .seq)

/-- SHA_ONESHOT (`44_sha.md` R135): the digest of the operand; the streaming context does not change. -/
def Obligations.ShaOneShotGivesTheDigest : Prop :=
  ∀ s : State,
    (16384 < s.off + s.len → FailsWith .shaOneShot s .range) ∧
    (s.off + s.len ≤ 16384 →
      ∃ t, exec .shaOneShot s = .next t ∧ FrameMem (Span Win.digest 32) s t ∧
        t.shaContext = s.shaContext ∧
        Memory.readBytes t.mem Win.digest 32 = sha256 (Memory.readBytes s.mem (Win.data + s.off) s.len))

/-- SHA_INIT, SHA_UPDATE, SHA_FINAL over a message give the digest SHA_ONESHOT gives
(`44_sha.md` R130, R135). -/
def Obligations.StreamingEqualsOneShot : Prop :=
  ∀ s : State, s.off + s.len ≤ 16384 →
    ∃ a b c d, exec .shaInit s = .next a ∧ exec .shaUpdate a = .next b ∧ exec .shaFinal b = .next c ∧
      exec .shaOneShot s = .next d ∧ c.err = .ok ∧ d.err = .ok ∧
      Memory.readBytes c.mem Win.digest 32 = Memory.readBytes d.mem Win.digest 32

/-- HMAC (`44_sha.md` R136): the checks in order and the construction; a key longer than a block gives what
its hash gives; the streaming context does not change. -/
def Obligations.HmacGivesTheConstruction : Prop :=
  ∀ s : State,
    let kl := s.hkeyLen.toNat
    let key := Memory.readBytes s.mem Win.hkey kl
    let msg := Memory.readBytes s.mem (Win.data + s.off) s.len
    let k := if 64 < kl then sha256 key else key
    let k0 := k ++ List.replicate (64 - k.length) 0
    (16384 < s.off + s.len ∨ 128 < kl → FailsWith .hmac s .range) ∧
    (s.off + s.len ≤ 16384 → kl ≤ 128 →
      ∃ t, exec .hmac s = .next t ∧ FrameMem (Span Win.digest 32) s t ∧ t.shaContext = s.shaContext ∧
        Memory.readBytes t.mem Win.digest 32 =
          sha256 (k0.map (· ^^^ 0x5c) ++ sha256 (k0.map (· ^^^ 0x36) ++ msg)) ∧
        (64 < kl → Memory.readBytes t.mem Win.digest 32 = hmacSha256 (sha256 key) msg))

/-! ### The host port -/

/-- Acceptance while idle; while busy every write but those of INT_EN, INT_STAT and CTRL is dropped and
sets OVR, and those three take effect as when idle (`60_exceptions.md` R140, `20_memory.md` R62). -/
def Obligations.HostWritesWhileIdleAndBusy : Prop :=
  (∀ (s : State) (v : Word), s.busy = false → s.hostWrite 0x0004 v = { s with cmd := v, busy := true }) ∧
  (∀ (s : State) (off : Nat) (v : Word), s.busy = true → off < 0x8000 → off % 4 = 0 →
    off ≠ 0x000C → off ≠ 0x0010 → off ≠ 0x002C → s.hostWrite off v = { s with intOvr := true }) ∧
  ∀ (s : State) (v : Word), s.busy = true →
    s.hostWrite 0x000C v = { s with doneEn := v.getLsbD 0, ovrEn := v.getLsbD 1 } ∧
    s.hostWrite 0x0010 v =
      { s with intDone := s.intDone && !v.getLsbD 0, intOvr := s.intOvr && !v.getLsbD 1 } ∧
    (v.getLsbD 0 = true → s.hostWrite 0x002C v = s.resetBlock) ∧
    (v.getLsbD 0 = false → s.hostWrite 0x002C v = s)

/-- A host read changes nothing of the block and returns the architectural value; while busy, at an offset
other than ID, CMD, STATUS, INT_EN, INT_STAT and CTRL, a free value (`20_memory.md` R60, R63). How the free
value is drawn is the model's choice (log entry 3). -/
def Obligations.HostReadsChangeNothing : Prop :=
  ∀ (s : State) (off : Nat), off < 0x8000 → off % 4 = 0 →
    (s.hostRead off = { s with rdata := (s.hostRead off).rdata, draws := (s.hostRead off).draws }) ∧
    (s.busy = false ∨ off ∈ [0x0000, 0x0004, 0x0008, 0x000C, 0x0010, 0x002C] →
      (s.hostRead off).rdata = s.windowValue off ∧ (s.hostRead off).draws = s.draws) ∧
    (s.busy = true → off ∉ [0x0000, 0x0004, 0x0008, 0x000C, 0x0010, 0x002C] →
      (s.hostRead off).rdata = Config.busyRead s.draws ∧ (s.hostRead off).draws = s.draws + 1)

/-- Byte windows (`20_memory.md` R56): the host word at a word of a byte window is its four bytes, the byte at
the lower offset in the lower bits; an idle write of `x` stores byte `t` of `x` at the `t`-th offset and
reads back as `x`; no other byte and, but for NU, no register changes. -/
def Obligations.ByteWindowLanesAreLittleEndian : Prop :=
  ∀ (s : State) (off : Nat) (x : Word), s.busy = false → off % 4 = 0 → inByteWindow off = true →
    (s.windowValue off).toNat =
      (Memory.read s.mem off).toNat + (Memory.read s.mem (off + 1)).toNat * 2 ^ 8 +
        (Memory.read s.mem (off + 2)).toNat * 2 ^ 16 + (Memory.read s.mem (off + 3)).toNat * 2 ^ 24 ∧
    (s.hostWrite off x).windowValue off = x ∧
    (∀ t, t < 4 → (Memory.read (s.hostWrite off x).mem (off + t)).toNat = x.toNat >>> (8 * t) % 256) ∧
    (∀ a, ¬ Span off 4 a → Memory.read (s.hostWrite off x).mem a = Memory.read s.mem a) ∧
    s.hostWrite off x = { s with mem := (s.hostWrite off x).mem, slots := (s.hostWrite off x).slots } ∧
    ∀ k, (s.hostWrite off x).slot k = { s.slot k with nu := ((s.hostWrite off x).slot k).nu }

/-- Bignum words (`10_state.md` R31): a register is the sum of its 128 words, word 0 least significant; an
idle write of word `j` changes that word only. -/
def Obligations.BignumWordsAreLittleEndian : Prop :=
  ∀ (s : State) (r : BnReg),
    (s.readBn r = ∑ j ∈ Finset.range 128,
      (s.windowValue (0x0800 + 0x200 * regIndex r + 4 * j)).toNat * 2 ^ (32 * j)) ∧
    ∀ (j : Nat) (x : Word), j < 128 → s.busy = false →
      let t := s.hostWrite (0x0800 + 0x200 * regIndex r + 4 * j) x
      t = { s with bn := t.bn } ∧
      ∀ (q : BnReg) (i : Nat), i < 128 →
        t.windowValue (0x0800 + 0x200 * regIndex q + 4 * i) =
          if q = r ∧ i = j then x else s.windowValue (0x0800 + 0x200 * regIndex q + 4 * i)

/-- STATUS (`10_state.md` R25, `60_exceptions.md` R143): every field at its bits, the codes of CMP and ERR, the
mirrors of the state they name, and the reserved bits 0. -/
def Obligations.StatusFieldsStandAtTheirBits : Prop :=
  ∀ s : State,
    let v := s.windowValue 0x0008
    v.getLsbD 0 = s.busy ∧ v.getLsbD 1 = s.vok ∧ v.extractLsb' 4 4 = 0 ∧ v.getLsbD 16 = s.shaValid ∧
    v.getLsbD 17 = (s.slot .s0).kv ∧ v.getLsbD 18 = (s.slot .s1).kv ∧ v.getLsbD 19 = s.rsaKv ∧
    v.getLsbD 20 = (s.slot .s0).nu ∧ v.getLsbD 21 = (s.slot .s1).nu ∧ v.extractLsb' 22 10 = 0 ∧
    (v.extractLsb' 2 2 = match s.cmp with
      | .equal => 0
      | .less => 1
      | .greater => 2) ∧
    v.extractLsb' 8 8 = match s.err with
      | .ok => 0x00
      | .illegal => 0x01
      | .range => 0x02
      | .capacity => 0x03
      | .overflow => 0x04
      | .underflow => 0x05
      | .divZero => 0x06
      | .align => 0x07
      | .noKey => 0x08
      | .seq => 0x09
      | .msgLen => 0x0A
      | .padZero => 0x0B
      | .tag => 0x0C
      | .nonce => 0x0D
      | .key => 0x0E

/-- The interrupt output, and INT_STAT as write-1-to-clear while idle (`60_exceptions.md` R145,
`10_state.md` R26, R27): the bits read back, writing 0 changes nothing, INT_EN masks only the output; every completion, a command's or an
illegal word's (R141), raises irq where DONE_EN is set. -/
def Obligations.InterruptsFollowEnablesAndStatus : Prop :=
  (∀ s : State, s.irq = true ↔
    ((s.windowValue 0x0010).getLsbD 0 = true ∧ (s.windowValue 0x000C).getLsbD 0 = true) ∨
      ((s.windowValue 0x0010).getLsbD 1 = true ∧ (s.windowValue 0x000C).getLsbD 1 = true)) ∧
  (∀ (s : State) (v : Word), s.hostWrite 0x0010 0 = s ∧
    (s.hostWrite 0x0010 v).windowValue 0x0010 = s.windowValue 0x0010 &&& ~~~v ∧
    (s.hostWrite 0x000C v).windowValue 0x000C = v &&& 3 ∧
    (s.hostWrite 0x000C v).windowValue 0x0010 = s.windowValue 0x0010) ∧
  (∀ (i : Instr) (s t : State), exec i s = .next t → s.doneEn = true → t.irq = true) ∧
  ∀ s t : State, s.busy = true → engineTurn s = .next t → s.doneEn = true → t.irq = true

/-- The word registers at their offsets (`10_state.md` R22 to R24, R26 to R29, R34, R37, R40 to R42). In every state
a read gives the field the commands read and write; an idle write of a writable one changes that field alone,
given here as the whole next state, and is read back, but for SHA_CNT bits 2:0 and SHA_CTX bits 31:1, which
read 0. Reserved offsets read 0, and a write to a reserved or read-only offset while idle changes nothing. -/
def Obligations.RegistersReadBackWhatWasWritten : Prop :=
  (∀ s : State,
    s.windowValue 0x0004 = s.cmd ∧ s.windowValue 0x0014 = s.result ∧ s.windowValue 0x0018 = s.dataOff ∧
    s.windowValue 0x001C = s.dataLen ∧ s.windowValue 0x0020 = s.bnShamt ∧ s.windowValue 0x0024 = s.aadLen ∧
    s.windowValue 0x0028 = s.hkeyLen ∧
    (s.windowValue 0x0030).toNat = s.rsaBits.toNat ∧ (s.windowValue 0x0034).toNat = s.rsaKlen.toNat ∧
    s.windowValue 0x00C0 = s.shaH.h0 ∧ s.windowValue 0x00C4 = s.shaH.h1 ∧ s.windowValue 0x00C8 = s.shaH.h2 ∧
    s.windowValue 0x00CC = s.shaH.h3 ∧ s.windowValue 0x00D0 = s.shaH.h4 ∧ s.windowValue 0x00D4 = s.shaH.h5 ∧
    s.windowValue 0x00D8 = s.shaH.h6 ∧ s.windowValue 0x00DC = s.shaH.h7 ∧
    (s.windowValue 0x00E0).toNat = s.shaCnt.toNat % 2 ^ 32 ∧
    (s.windowValue 0x00E4).toNat = s.shaCnt.toNat / 2 ^ 32 ∧
    s.windowValue 0x00E8 = (if s.shaValid then 1 else 0) ∧
    ∀ (k : Slot) (i : Nat), i < 44 →
      s.windowValue (0x1000 + 0x100 * slotIndex k + 4 * i) = roundKeyWord (s.slot k).rk i) ∧
  ∀ (s : State) (v : Word), s.busy = false →
    s.hostWrite 0x000C v = { s with doneEn := v.getLsbD 0, ovrEn := v.getLsbD 1 } ∧
    s.hostWrite 0x0010 v =
      { s with intDone := s.intDone && !v.getLsbD 0, intOvr := s.intOvr && !v.getLsbD 1 } ∧
    s.hostWrite 0x0018 v = { s with dataOff := v } ∧
    s.hostWrite 0x001C v = { s with dataLen := v } ∧
    s.hostWrite 0x0020 v = { s with bnShamt := v } ∧
    s.hostWrite 0x0024 v = { s with aadLen := v } ∧
    s.hostWrite 0x0028 v = { s with hkeyLen := v } ∧
    s.hostWrite 0x00C0 v = { s with shaH := { s.shaH with h0 := v } } ∧
    s.hostWrite 0x00C4 v = { s with shaH := { s.shaH with h1 := v } } ∧
    s.hostWrite 0x00C8 v = { s with shaH := { s.shaH with h2 := v } } ∧
    s.hostWrite 0x00CC v = { s with shaH := { s.shaH with h3 := v } } ∧
    s.hostWrite 0x00D0 v = { s with shaH := { s.shaH with h4 := v } } ∧
    s.hostWrite 0x00D4 v = { s with shaH := { s.shaH with h5 := v } } ∧
    s.hostWrite 0x00D8 v = { s with shaH := { s.shaH with h6 := v } } ∧
    s.hostWrite 0x00DC v = { s with shaH := { s.shaH with h7 := v } } ∧
    s.hostWrite 0x00E0 v =
      { s with shaCnt := BitVec.ofNat 64 (s.shaCnt.toNat / 2 ^ 32 * 2 ^ 32 + v.toNat / 8 * 8) } ∧
    s.hostWrite 0x00E4 v =
      { s with shaCnt := BitVec.ofNat 64 (v.toNat * 2 ^ 32 + s.shaCnt.toNat % 2 ^ 32) } ∧
    s.hostWrite 0x00E8 v = { s with shaValid := v.getLsbD 0 } ∧
    (∀ off ∈ [0x0018, 0x001C, 0x0020, 0x0024, 0x0028, 0x00C0, 0x00C4, 0x00C8, 0x00CC, 0x00D0, 0x00D4,
      0x00D8, 0x00DC, 0x00E4], (s.hostWrite off v).windowValue off = v) ∧
    (s.hostWrite 0x00E0 v).windowValue 0x00E0 = v &&& 0xFFFFFFF8 ∧
    (s.hostWrite 0x00E0 v).windowValue 0x00E4 = s.windowValue 0x00E4 ∧
    (s.hostWrite 0x00E4 v).windowValue 0x00E0 = s.windowValue 0x00E0 ∧
    (s.hostWrite 0x00E8 v).windowValue 0x00E8 = v &&& 1 ∧
    ∀ off, off % 4 = 0 →
      ((0x0038 ≤ off ∧ off < 0x0040) ∨ off = 0x006C ∨ off = 0x007C ∨ (0x0090 ≤ off ∧ off < 0x00A0) ∨
        (0x00EC ≤ off ∧ off < 0x0100) ∨ (0x0140 ≤ off ∧ off < 0x0200) ∨ (0x0240 ≤ off ∧ off < 0x0280) ∨
        (0x0300 ≤ off ∧ off < 0x0400) ∨ (0x0600 ≤ off ∧ off < 0x0800) ∨ (0x10B0 ≤ off ∧ off < 0x1100) ∨
        (0x11B0 ≤ off ∧ off < 0x4000) → s.windowValue off = 0 ∧ s.hostWrite off v = s) ∧
      (off ∈ [0x0000, 0x0008, 0x0014, 0x0030, 0x0034] ∨ (0x1000 ≤ off ∧ off < 0x10B0) ∨
        (0x1100 ≤ off ∧ off < 0x11B0) → s.hostWrite off v = s)

/-! ### The environment -/

/-- A step is refused exactly where it is a host access that leaves the window, is not 32 bits wide or is
misaligned (`20_memory.md` R55, R67); no step faults. That an access outside the window which is also not 32 bits
wide or misaligned is refused as `outsideWindow` is the model's choice of the name (log entry 7). -/
def Obligations.OnlyUndefinedAccessesAreRefused : Prop :=
  (∀ s : State, s.InputsDefined → ∃ t, step s = .next t) ∧
  ∀ (s : State) (a : HostAccess) rest, s.inputs = .host a :: rest →
    (a.shape.inWindow = false → step s = .refused .outsideWindow) ∧
    (a.shape.inWindow = true → (a.shape.width ≠ .word ∨ a.shape.offset % 4 ≠ 0) →
      step s = .refused .undefinedAccess) ∧
    (a.shape.inWindow = true → a.shape.width = .word → a.shape.offset % 4 = 0 →
      step s = .next (a.apply { s with inputs := rest }))

/-- The command in flight completes, or is abandoned by a reset, within one step more than the environment
takes (`70_reset_and_hazards.md` R164: "after a finite number of host steps"). That the engine takes its
turn once `inputs` is empty is the model's choice (log entry 2). -/
def Obligations.CommandInFlightEnds : Prop :=
  ∀ s : State, s.busy = true → s.InputsDefined →
    ∃ k t, k ≤ s.inputs.length + 1 ∧ core.run k s = .next t ∧ t.busy = false

/-- Nothing a command reads can change while it is in flight (`20_memory.md` R66): whatever the host writes
in between, short of a soft reset, the completion gives the same state, but for INT_EN and OVR. -/
def Obligations.HostCannotDisturbACommand : Prop :=
  ∀ (s t : State) (off : Nat) (v : Word), s.busy = true → off < 0x8000 → off % 4 = 0 →
    (off = 0x002C → v.getLsbD 0 = false) → runCommand s = .next t →
    runCommand (s.hostWrite off v) =
      .next { t with
        doneEn := (s.hostWrite off v).doneEn, ovrEn := (s.hostWrite off v).ovrEn
        intOvr := (s.hostWrite off v).intOvr }
end

