-- ==== Sys2Proof/Laws/Bytes.lean ====
section
/-! SUPPORT. Lengths of the byte strings the commands write. -/

namespace Sys2Proof.Machine

open Sys2Proof

@[simp] theorem toBytes_length (v n : Nat) : (toBytes v n).length = n := by
  simp only [toBytes, List.length_map, List.length_range]

@[simp] theorem bytesBe_length (w : Word) : (bytesBe w).length = 4 := rfl

@[simp] theorem wordToLanes_length (w : Word) : (wordToLanes w).length = 4 := rfl

@[simp] theorem zeroBytes_length (n : Nat) : (zeroBytes n).length = n := List.length_replicate

@[simp] theorem xorBytes_length (a b : List Byte) : (xorBytes a b).length = min a.length b.length :=
  List.length_zipWith

theorem blocks16_length (n : Nat) (s : List Byte) : (blocks16 n s).length = n := by
  induction n generalizing s with
  | zero => rfl
  | succ n ih => simp only [blocks16, List.length_cons, ih]

@[simp] theorem AesState.toBlock_length (s : AesState) : s.toBlock.length = 16 := rfl

@[simp] theorem aesEncrypt_length (w : RoundKeys) (b : List Byte) : (aesEncrypt w b).length = 16 := rfl

@[simp] theorem aesDecrypt_length (w : RoundKeys) (b : List Byte) : (aesDecrypt w b).length = 16 := rfl

theorem cbcEncrypt_length (w : RoundKeys) (n : Nat) (prev p : List Byte) :
    (cbcEncrypt w n prev p).1.length = 16 * n := by
  induction n generalizing prev p with
  | zero => rfl
  | succ n ih =>
      simp only [cbcEncrypt, List.length_append, aesEncrypt_length, ih]
      omega

/-- The chaining value of CBC is a block where the initial vector is one. -/
theorem cbcEncrypt_last_length (w : RoundKeys) (n : Nat) {prev : List Byte} (p : List Byte)
    (h : prev.length = 16) : (cbcEncrypt w n prev p).2.length = 16 := by
  induction n generalizing prev p with
  | zero => exact h
  | succ n ih => exact ih _ (aesEncrypt_length _ _)

theorem cbcDecrypt_length (w : RoundKeys) (n : Nat) {prev c : List Byte} (hp : prev.length = 16)
    (hc : 16 * n ≤ c.length) : (cbcDecrypt w n prev c).1.length = 16 * n := by
  induction n generalizing prev c with
  | zero => rfl
  | succ n ih =>
      have h1 : (c.take 16).length = 16 := by rw [List.length_take]; omega
      have h2 : 16 * n ≤ (c.drop 16).length := by rw [List.length_drop]; omega
      simp only [cbcDecrypt, List.length_append, xorBytes_length, aesDecrypt_length, hp, ih h1 h2]
      omega

theorem cbcDecrypt_last_length (w : RoundKeys) (n : Nat) {prev c : List Byte} (hp : prev.length = 16)
    (hc : 16 * n ≤ c.length) : (cbcDecrypt w n prev c).2.length = 16 := by
  induction n generalizing prev c with
  | zero => exact hp
  | succ n ih =>
      refine ih ?_ ?_
      · rw [List.length_take]; omega
      · rw [List.length_drop]; omega

theorem gctrLoop_length (w : RoundKeys) (n : Nat) (cb s : List Byte) (h : s.length ≤ 16 * n) :
    (gctrLoop w n cb s).length = s.length := by
  induction n generalizing cb s with
  | zero => simp only [gctrLoop, List.length_nil]; omega
  | succ n ih =>
      simp only [gctrLoop, List.length_append, xorBytes_length, aesEncrypt_length, List.length_take]
      rw [ih _ _ (by rw [List.length_drop]; omega), List.length_drop]
      omega

/-- Counter mode keeps the length (`43_gcm.md` R121). -/
@[simp] theorem gcmCrypt_length (w : RoundKeys) (iv s : List Byte) : (gcmCrypt w iv s).length = s.length :=
  gctrLoop_length w _ _ s (by omega)

@[simp] theorem ghash_length (h s : List Byte) : (ghash h s).length = 16 := toBytes_length _ _

/-- The tag is always 16 bytes (`43_gcm.md` R122). -/
@[simp] theorem gcmTag_length (w : RoundKeys) (iv a c : List Byte) : (gcmTag w iv a c).length = 16 := by
  simp only [gcmTag, xorBytes_length, aesEncrypt_length, ghash_length, Nat.min_self]

@[simp] theorem Hash8.bytes_length (h : Hash8) : h.bytes.length = 32 := rfl

@[simp] theorem sha256_length (m : List Byte) : (sha256 m).length = 32 := rfl

@[simp] theorem hmacSha256_length (k m : List Byte) : (hmacSha256 k m).length = 32 := rfl

@[simp] theorem absorb_nil (c : ShaContext) : absorb c [] = c := rfl

@[simp] theorem absorb_cons (c : ShaContext) (x : Byte) (s : List Byte) :
    absorb c (x :: s) = absorb (absorbByte c x) s := rfl

@[simp] theorem absorbByte_buf_length (c : ShaContext) (x : Byte) : (absorbByte c x).buf.length = c.buf.length :=
  List.length_set

/-- Absorbing keeps the pending block's size (`44_sha.md` R129). -/
@[simp] theorem absorb_buf_length (c : ShaContext) (s : List Byte) : (absorb c s).buf.length = c.buf.length := by
  induction s generalizing c with
  | nil => rfl
  | cons x s ih => rw [absorb_cons, ih, absorbByte_buf_length]

end Sys2Proof.Machine
end

