-- ==== Sys2Proof/Laws/Encoding.lean ====
section
/-! SUPPORT. Splitting and joining command words. -/

namespace Sys2Proof

/-- Splitting a joined word gives the fields back: no field overlaps another (`30_encoding.md` R74). -/
@[simp] theorem CommandWord.ofWord_toWord (f : CommandWord) : CommandWord.ofWord f.toWord = f := by
  obtain ⟨op, rd, rs1, rs2, rm, slot, reserved⟩ := f
  simp only [CommandWord.ofWord, CommandWord.toWord, CommandWord.mk.injEq]
  refine ⟨?_, ?_, ?_, ?_, ?_, ?_, ?_⟩ <;>
  · apply BitVec.eq_of_getLsbD_eq
    intro i hi
    interval_cases i <;> simp

@[simp] theorem BnReg.ofField_toField (r : BnReg) : BnReg.ofField r.toField = r := by cases r <;> rfl

@[simp] theorem Slot.ofField_toField (s : Slot) : Slot.ofField s.toField = s := by cases s <;> rfl

end Sys2Proof
end

