-- ==== Sys2Proof/Laws/Memory.lean ====
section
/-! SUPPORT. The byte windows: read after write, writes elsewhere, and the canonical form. -/

namespace Sys2Proof.Machine

open Sys2Proof

namespace Memory

/-! ### Reading -/

@[simp] theorem read_nil (a : Nat) : read [] a = 0 := rfl

theorem read_cons (x : Nat) (b : Byte) (rest : Memory) (a : Nat) :
    read ((x, b) :: rest) a = if x = a then b else read rest a := rfl

/-- An offset that is not listed reads its reset contents. -/
theorem read_of_unlisted {m : Memory} {a : Nat} (h : ∀ c ∈ m, c.1 ≠ a) : read m a = 0 := by
  induction m with
  | nil => rfl
  | cons c rest ih =>
      obtain ⟨x, b⟩ := c
      rw [read_cons, if_neg (h (x, b) List.mem_cons_self)]
      exact ih fun c hc => h c (List.mem_cons_of_mem _ hc)

theorem read_filter_same (m : Memory) (a : Nat) : read (m.filter fun c => c.1 != a) a = 0 :=
  read_of_unlisted fun c hc => by simpa using (List.mem_filter.mp hc).2

theorem read_filter_other (m : Memory) {a x : Nat} (h : x ≠ a) :
    read (m.filter fun c => c.1 != a) x = read m x := by
  induction m with
  | nil => rfl
  | cons c rest ih =>
      obtain ⟨y, b⟩ := c
      by_cases hy : y = a
      · subst hy
        rw [List.filter_cons_of_neg (by simp), ih, read_cons, if_neg (Ne.symm h)]
      · rw [List.filter_cons_of_pos (by simpa using hy), read_cons, read_cons, ih]

theorem read_insert_other (m : Memory) {a x : Nat} (v : Byte) (h : x ≠ a) :
    read (insert m a v) x = read m x := by
  induction m with
  | nil => simp only [insert, read_cons, if_neg (Ne.symm h)]
  | cons c rest ih =>
      obtain ⟨y, b⟩ := c
      simp only [insert]
      split
      · rw [read_cons, if_neg (Ne.symm h)]
      · rw [read_cons, read_cons, ih]

theorem read_insert_same {m : Memory} {a : Nat} (v : Byte) (h : ∀ c ∈ m, c.1 ≠ a) :
    read (insert m a v) a = v := by
  induction m with
  | nil => simp only [insert, read_cons, if_true]
  | cons c rest ih =>
      obtain ⟨y, b⟩ := c
      simp only [insert]
      split
      · rw [read_cons, if_pos rfl]
      · rw [read_cons, if_neg (h (y, b) List.mem_cons_self)]
        exact ih fun c hc => h c (List.mem_cons_of_mem _ hc)

/-- Read after write, the same offset. -/
@[simp] theorem read_write_same (m : Memory) (a : Nat) (v : Byte) : read (write m a v) a = v := by
  simp only [write]
  split
  · next hv => rw [read_filter_same, hv]
  · exact read_insert_same v fun c hc => by simpa using (List.mem_filter.mp hc).2

/-- A write leaves every other offset alone. -/
theorem read_write_other (m : Memory) {a x : Nat} (v : Byte) (h : x ≠ a) : read (write m a v) x = read m x := by
  simp only [write]
  split
  · exact read_filter_other m h
  · rw [read_insert_other _ v h, read_filter_other m h]

/-! ### Byte strings -/

@[simp] theorem readBytes_length (m : Memory) (a n : Nat) : (readBytes m a n).length = n := by
  simp only [readBytes, List.length_map, List.length_range]

theorem readBytes_getD (m : Memory) (a : Nat) {n j : Nat} (h : j < n) :
    (readBytes m a n).getD j 0 = read m (a + j) := by
  simp [readBytes, List.getD_eq_getElem?_getD, h]

@[simp] theorem writeBytes_nil (m : Memory) (a : Nat) : writeBytes m a [] = m := rfl

theorem read_writeBytes_below (m : Memory) {a x : Nat} (bs : List Byte) (h : x < a) :
    read (writeBytes m a bs) x = read m x := by
  induction bs generalizing m a with
  | nil => rfl
  | cons b bs ih =>
      rw [writeBytes, ih _ (Nat.lt_succ_of_lt h), read_write_other _ _ (Nat.ne_of_lt h)]

/-- Storing a byte string leaves every offset outside it alone. -/
theorem read_writeBytes_outside (m : Memory) {a x : Nat} (bs : List Byte) (h : x < a ∨ a + bs.length ≤ x) :
    read (writeBytes m a bs) x = read m x := by
  induction bs generalizing m a with
  | nil => rfl
  | cons b bs ih =>
      simp only [List.length_cons] at h
      rw [writeBytes, ih _ (by omega), read_write_other _ _ (by omega)]

/-- Storing a byte string stores each of its bytes. -/
theorem read_writeBytes_inside (m : Memory) (a : Nat) {bs : List Byte} {j : Nat} (h : j < bs.length) :
    read (writeBytes m a bs) (a + j) = bs.getD j 0 := by
  induction bs generalizing m a j with
  | nil => simp at h
  | cons b bs ih =>
      cases j with
      | zero =>
          rw [Nat.add_zero, writeBytes, read_writeBytes_below _ _ (Nat.lt_succ_self a), read_write_same]
          rfl
      | succ j =>
          rw [writeBytes, show a + (j + 1) = (a + 1) + j by omega, ih _ _ (by simpa using h)]
          rfl

/-- What was stored is read back. -/
theorem readBytes_writeBytes_same (m : Memory) (a : Nat) (bs : List Byte) :
    readBytes (writeBytes m a bs) a bs.length = bs := by
  apply List.ext_getElem (by simp)
  intro j h1 h2
  have := read_writeBytes_inside m a h2
  simp only [readBytes, List.getElem_map, List.getElem_range, this, List.getD_eq_getElem?_getD,
    List.getElem?_eq_getElem h2, Option.getD_some]

/-- A byte string elsewhere reads as before. -/
theorem readBytes_writeBytes_apart (m : Memory) {a c n : Nat} (bs : List Byte)
    (h : c + n ≤ a ∨ a + bs.length ≤ c) : readBytes (writeBytes m a bs) c n = readBytes m c n := by
  apply List.map_congr_left
  intro j hj
  have := List.mem_range.mp hj
  exact read_writeBytes_outside m bs (by omega)

/-! ### The canonical form -/

theorem wf_nil : wf [] := ⟨List.Pairwise.nil, by simp⟩

theorem wf_filter {m : Memory} (h : wf m) (p : Host.Cell → Bool) : wf (m.filter p) :=
  ⟨h.1.filter p, fun c hc => h.2 c (List.mem_filter.mp hc).1⟩

/-- The entries of a memory after an insertion. -/
theorem mem_insert {m : Memory} {a : Nat} {v : Byte} {c : Host.Cell} :
    c ∈ insert m a v ↔ c = (a, v) ∨ c ∈ m := by
  induction m with
  | nil => simp [insert]
  | cons d rest ih =>
      obtain ⟨y, b⟩ := d
      simp only [insert]
      split
      · simp only [List.mem_cons]
      · simp only [List.mem_cons, ih]
        exact ⟨fun h => by rcases h with h | h | h <;> simp [h], fun h => by rcases h with h | h | h <;> simp [h]⟩

theorem wf_insert {m : Memory} {a : Nat} {v : Byte} (h : wf m) (hv : v ≠ 0) (ha : ∀ c ∈ m, c.1 ≠ a) :
    wf (insert m a v) := by
  refine ⟨?_, fun c hc => ?_⟩
  · induction m with
    | nil => exact List.pairwise_singleton _ _
    | cons d rest ih =>
        obtain ⟨y, b⟩ := d
        have hrest : wf rest := ⟨(List.pairwise_cons.mp h.1).2, fun c hc => h.2 c (List.mem_cons_of_mem _ hc)⟩
        have hy := (List.pairwise_cons.mp h.1).1
        simp only [insert]
        split
        · next hlt =>
            refine List.pairwise_cons.mpr ⟨fun c hc => ?_, h.1⟩
            rcases List.mem_cons.mp hc with rfl | hc
            · exact hlt
            · exact Nat.lt_trans hlt (hy c hc)
        · next hge =>
            have hne : y ≠ a := ha (y, b) List.mem_cons_self
            refine List.pairwise_cons.mpr
              ⟨fun c hc => ?_, ih hrest fun c hc => ha c (List.mem_cons_of_mem _ hc)⟩
            rcases mem_insert.mp hc with rfl | hc
            · show y < a
              omega
            · exact hy c hc
  · rcases mem_insert.mp hc with rfl | hc
    · exact hv
    · exact h.2 c hc

/-- One write keeps the canonical form. -/
theorem wf_write {m : Memory} (h : wf m) (a : Nat) (v : Byte) : wf (write m a v) := by
  simp only [write]
  split
  · exact wf_filter h _
  · next hv =>
      exact wf_insert (wf_filter h _) hv fun c hc => by simpa using (List.mem_filter.mp hc).2

/-- Storing a byte string keeps the canonical form. -/
theorem wf_writeBytes {m : Memory} (h : wf m) (a : Nat) (bs : List Byte) : wf (writeBytes m a bs) := by
  induction bs generalizing m a with
  | nil => exact h
  | cons b bs ih => exact ih (wf_write h a b) (a + 1)

/-- The memory after reset has the canonical form. -/
theorem wf_reset : wf State.reset.mem := wf_nil

/-- Every entry after a write was there before or is at the offset written. -/
theorem mem_write {m : Memory} {a : Nat} {v : Byte} {c : Host.Cell} (h : c ∈ write m a v) :
    c.1 = a ∨ c ∈ m := by
  simp only [write] at h
  split at h
  · exact .inr (List.mem_filter.mp h).1
  · rcases mem_insert.mp h with rfl | h
    · exact .inl rfl
    · exact .inr (List.mem_filter.mp h).1

/-- Every entry after storing a byte string was there before or lies in it. -/
theorem mem_writeBytes {m : Memory} {a : Nat} {bs : List Byte} {c : Host.Cell} (h : c ∈ writeBytes m a bs) :
    (a ≤ c.1 ∧ c.1 < a + bs.length) ∨ c ∈ m := by
  induction bs generalizing m a with
  | nil => exact .inr h
  | cons b bs ih =>
      rcases ih h with ⟨h1, h2⟩ | h'
      · exact .inl ⟨by omega, by simp only [List.length_cons]; omega⟩
      · rcases mem_write h' with h'' | h''
        · exact .inl ⟨by omega, by simp only [List.length_cons]; omega⟩
        · exact .inr h''

end Memory

end Sys2Proof.Machine
end

