-- ==== Sys2Proof/Laws/PerInstr.lean ====
section
/-! SUPPORT. Facts about every command as syntax, one lemma per constructor. -/

namespace Sys2Proof.Laws.WordLegal

open Sys2Proof

/-- The word of a command is legal and carries the command's opcode (`30_encoding.md` R74, R80). -/
def Statement (i : Instr) : Prop :=
  (CommandWord.ofWord (encode i)).wellFormed = true ∧ (CommandWord.ofWord (encode i)).op = i.opcode

/-- It is enough to look at the fields of the command's word. -/
theorem of_fields {i : Instr} (hw : i.fields.wellFormed = true) (ho : i.fields.op = i.opcode) : Statement i := by
  unfold Statement encode
  rw [CommandWord.ofWord_toWord]
  exact ⟨hw, ho⟩

theorem nop : Statement .nop := of_fields rfl rfl
theorem bnFromBytes (rd : BnReg) : Statement (.bnFromBytes rd) := of_fields rfl rfl
theorem bnToBytes (rs1 : BnReg) : Statement (.bnToBytes rs1) := of_fields rfl rfl
theorem bnAdd (rd rs1 rs2 : BnReg) : Statement (.bnAdd rd rs1 rs2) := of_fields rfl rfl
theorem bnSub (rd rs1 rs2 : BnReg) : Statement (.bnSub rd rs1 rs2) := of_fields rfl rfl
theorem bnMul (rd rs1 rs2 : BnReg) : Statement (.bnMul rd rs1 rs2) := of_fields rfl rfl
theorem bnShl (rd rs1 : BnReg) : Statement (.bnShl rd rs1) := of_fields rfl rfl
theorem bnShr (rd rs1 : BnReg) : Statement (.bnShr rd rs1) := of_fields rfl rfl
theorem bnCmp (rs1 rs2 : BnReg) : Statement (.bnCmp rs1 rs2) := of_fields rfl rfl
theorem bnMod (rd rs1 rm : BnReg) : Statement (.bnMod rd rs1 rm) := of_fields rfl rfl
theorem bnModMul (rd rs1 rs2 rm : BnReg) : Statement (.bnModMul rd rs1 rs2 rm) := of_fields rfl rfl
theorem bnModExp (rd rs1 rs2 rm : BnReg) : Statement (.bnModExp rd rs1 rs2 rm) := of_fields rfl rfl
theorem bnBitLen (rs1 : BnReg) : Statement (.bnBitLen rs1) := of_fields rfl rfl
theorem bnBitTest (rs1 : BnReg) : Statement (.bnBitTest rs1) := of_fields rfl rfl
theorem rsaSetKey (rs2 rm : BnReg) : Statement (.rsaSetKey rs2 rm) := of_fields rfl rfl
theorem rsaEnc : Statement .rsaEnc := of_fields rfl rfl
theorem rsaVerify : Statement .rsaVerify := of_fields rfl rfl
theorem aesKeyExp (slot : Slot) : Statement (.aesKeyExp slot) := of_fields rfl rfl
theorem aesEncBlk (slot : Slot) : Statement (.aesEncBlk slot) := of_fields rfl rfl
theorem aesDecBlk (slot : Slot) : Statement (.aesDecBlk slot) := of_fields rfl rfl
theorem aesCbcEnc (slot : Slot) : Statement (.aesCbcEnc slot) := of_fields rfl rfl
theorem aesCbcDec (slot : Slot) : Statement (.aesCbcDec slot) := of_fields rfl rfl
theorem gcmEnc (slot : Slot) : Statement (.gcmEnc slot) := of_fields rfl rfl
theorem gcmDec (slot : Slot) : Statement (.gcmDec slot) := of_fields rfl rfl
theorem shaInit : Statement .shaInit := of_fields rfl rfl
theorem shaUpdate : Statement .shaUpdate := of_fields rfl rfl
theorem shaFinal : Statement .shaFinal := of_fields rfl rfl
theorem shaOneShot : Statement .shaOneShot := of_fields rfl rfl
theorem hmac : Statement .hmac := of_fields rfl rfl

end Sys2Proof.Laws.WordLegal
end

