-- ==== Sys2Proof/Laws/State.lean ====
section
/-! SUPPORT. Each named update of the state, field by field: one lemma per field per update, true by
definition, so that no later proof unfolds a record update. -/

namespace Sys2Proof.Machine.State

open Sys2Proof

variable (s : State)

/-! ### `finish` -/

@[simp] theorem finish_cmd (e : ErrCode) : (s.finish e).cmd = s.cmd := rfl
@[simp] theorem finish_busy (e : ErrCode) : (s.finish e).busy = false := rfl
@[simp] theorem finish_vok (e : ErrCode) : (s.finish e).vok = s.vok := rfl
@[simp] theorem finish_cmp (e : ErrCode) : (s.finish e).cmp = s.cmp := rfl
@[simp] theorem finish_err (e : ErrCode) : (s.finish e).err = e := rfl
@[simp] theorem finish_doneEn (e : ErrCode) : (s.finish e).doneEn = s.doneEn := rfl
@[simp] theorem finish_ovrEn (e : ErrCode) : (s.finish e).ovrEn = s.ovrEn := rfl
@[simp] theorem finish_intDone (e : ErrCode) : (s.finish e).intDone = true := rfl
@[simp] theorem finish_intOvr (e : ErrCode) : (s.finish e).intOvr = s.intOvr := rfl
@[simp] theorem finish_result (e : ErrCode) : (s.finish e).result = s.result := rfl
@[simp] theorem finish_dataOff (e : ErrCode) : (s.finish e).dataOff = s.dataOff := rfl
@[simp] theorem finish_dataLen (e : ErrCode) : (s.finish e).dataLen = s.dataLen := rfl
@[simp] theorem finish_bnShamt (e : ErrCode) : (s.finish e).bnShamt = s.bnShamt := rfl
@[simp] theorem finish_aadLen (e : ErrCode) : (s.finish e).aadLen = s.aadLen := rfl
@[simp] theorem finish_hkeyLen (e : ErrCode) : (s.finish e).hkeyLen = s.hkeyLen := rfl
@[simp] theorem finish_bn (e : ErrCode) : (s.finish e).bn = s.bn := rfl
@[simp] theorem finish_rsaN (e : ErrCode) : (s.finish e).rsaN = s.rsaN := rfl
@[simp] theorem finish_rsaE (e : ErrCode) : (s.finish e).rsaE = s.rsaE := rfl
@[simp] theorem finish_rsaBits (e : ErrCode) : (s.finish e).rsaBits = s.rsaBits := rfl
@[simp] theorem finish_rsaKlen (e : ErrCode) : (s.finish e).rsaKlen = s.rsaKlen := rfl
@[simp] theorem finish_rsaKv (e : ErrCode) : (s.finish e).rsaKv = s.rsaKv := rfl
@[simp] theorem finish_slots (e : ErrCode) : (s.finish e).slots = s.slots := rfl
@[simp] theorem finish_shaH (e : ErrCode) : (s.finish e).shaH = s.shaH := rfl
@[simp] theorem finish_shaCnt (e : ErrCode) : (s.finish e).shaCnt = s.shaCnt := rfl
@[simp] theorem finish_shaValid (e : ErrCode) : (s.finish e).shaValid = s.shaValid := rfl
@[simp] theorem finish_mem (e : ErrCode) : (s.finish e).mem = s.mem := rfl
@[simp] theorem finish_inputs (e : ErrCode) : (s.finish e).inputs = s.inputs := rfl
@[simp] theorem finish_rdata (e : ErrCode) : (s.finish e).rdata = s.rdata := rfl
@[simp] theorem finish_draws (e : ErrCode) : (s.finish e).draws = s.draws := rfl

/-! ### `writeBn` -/

@[simp] theorem writeBn_cmd (r : BnReg) (v : Nat) : (s.writeBn r v).cmd = s.cmd := rfl
@[simp] theorem writeBn_busy (r : BnReg) (v : Nat) : (s.writeBn r v).busy = s.busy := rfl
@[simp] theorem writeBn_vok (r : BnReg) (v : Nat) : (s.writeBn r v).vok = s.vok := rfl
@[simp] theorem writeBn_cmp (r : BnReg) (v : Nat) : (s.writeBn r v).cmp = s.cmp := rfl
@[simp] theorem writeBn_err (r : BnReg) (v : Nat) : (s.writeBn r v).err = s.err := rfl
@[simp] theorem writeBn_doneEn (r : BnReg) (v : Nat) : (s.writeBn r v).doneEn = s.doneEn := rfl
@[simp] theorem writeBn_ovrEn (r : BnReg) (v : Nat) : (s.writeBn r v).ovrEn = s.ovrEn := rfl
@[simp] theorem writeBn_intDone (r : BnReg) (v : Nat) : (s.writeBn r v).intDone = s.intDone := rfl
@[simp] theorem writeBn_intOvr (r : BnReg) (v : Nat) : (s.writeBn r v).intOvr = s.intOvr := rfl
@[simp] theorem writeBn_result (r : BnReg) (v : Nat) : (s.writeBn r v).result = s.result := rfl
@[simp] theorem writeBn_dataOff (r : BnReg) (v : Nat) : (s.writeBn r v).dataOff = s.dataOff := rfl
@[simp] theorem writeBn_dataLen (r : BnReg) (v : Nat) : (s.writeBn r v).dataLen = s.dataLen := rfl
@[simp] theorem writeBn_bnShamt (r : BnReg) (v : Nat) : (s.writeBn r v).bnShamt = s.bnShamt := rfl
@[simp] theorem writeBn_aadLen (r : BnReg) (v : Nat) : (s.writeBn r v).aadLen = s.aadLen := rfl
@[simp] theorem writeBn_hkeyLen (r : BnReg) (v : Nat) : (s.writeBn r v).hkeyLen = s.hkeyLen := rfl
@[simp] theorem writeBn_bn (r : BnReg) (v : Nat) : (s.writeBn r v).bn = s.bn.set r (BitVec.ofNat 4096 v) := rfl
@[simp] theorem writeBn_rsaN (r : BnReg) (v : Nat) : (s.writeBn r v).rsaN = s.rsaN := rfl
@[simp] theorem writeBn_rsaE (r : BnReg) (v : Nat) : (s.writeBn r v).rsaE = s.rsaE := rfl
@[simp] theorem writeBn_rsaBits (r : BnReg) (v : Nat) : (s.writeBn r v).rsaBits = s.rsaBits := rfl
@[simp] theorem writeBn_rsaKlen (r : BnReg) (v : Nat) : (s.writeBn r v).rsaKlen = s.rsaKlen := rfl
@[simp] theorem writeBn_rsaKv (r : BnReg) (v : Nat) : (s.writeBn r v).rsaKv = s.rsaKv := rfl
@[simp] theorem writeBn_slots (r : BnReg) (v : Nat) : (s.writeBn r v).slots = s.slots := rfl
@[simp] theorem writeBn_shaH (r : BnReg) (v : Nat) : (s.writeBn r v).shaH = s.shaH := rfl
@[simp] theorem writeBn_shaCnt (r : BnReg) (v : Nat) : (s.writeBn r v).shaCnt = s.shaCnt := rfl
@[simp] theorem writeBn_shaValid (r : BnReg) (v : Nat) : (s.writeBn r v).shaValid = s.shaValid := rfl
@[simp] theorem writeBn_mem (r : BnReg) (v : Nat) : (s.writeBn r v).mem = s.mem := rfl
@[simp] theorem writeBn_inputs (r : BnReg) (v : Nat) : (s.writeBn r v).inputs = s.inputs := rfl
@[simp] theorem writeBn_rdata (r : BnReg) (v : Nat) : (s.writeBn r v).rdata = s.rdata := rfl
@[simp] theorem writeBn_draws (r : BnReg) (v : Nat) : (s.writeBn r v).draws = s.draws := rfl

/-! ### `setResult` -/

@[simp] theorem setResult_cmd (v : Nat) : (s.setResult v).cmd = s.cmd := rfl
@[simp] theorem setResult_busy (v : Nat) : (s.setResult v).busy = s.busy := rfl
@[simp] theorem setResult_vok (v : Nat) : (s.setResult v).vok = s.vok := rfl
@[simp] theorem setResult_cmp (v : Nat) : (s.setResult v).cmp = s.cmp := rfl
@[simp] theorem setResult_err (v : Nat) : (s.setResult v).err = s.err := rfl
@[simp] theorem setResult_doneEn (v : Nat) : (s.setResult v).doneEn = s.doneEn := rfl
@[simp] theorem setResult_ovrEn (v : Nat) : (s.setResult v).ovrEn = s.ovrEn := rfl
@[simp] theorem setResult_intDone (v : Nat) : (s.setResult v).intDone = s.intDone := rfl
@[simp] theorem setResult_intOvr (v : Nat) : (s.setResult v).intOvr = s.intOvr := rfl
@[simp] theorem setResult_result (v : Nat) : (s.setResult v).result = BitVec.ofNat 32 v := rfl
@[simp] theorem setResult_dataOff (v : Nat) : (s.setResult v).dataOff = s.dataOff := rfl
@[simp] theorem setResult_dataLen (v : Nat) : (s.setResult v).dataLen = s.dataLen := rfl
@[simp] theorem setResult_bnShamt (v : Nat) : (s.setResult v).bnShamt = s.bnShamt := rfl
@[simp] theorem setResult_aadLen (v : Nat) : (s.setResult v).aadLen = s.aadLen := rfl
@[simp] theorem setResult_hkeyLen (v : Nat) : (s.setResult v).hkeyLen = s.hkeyLen := rfl
@[simp] theorem setResult_bn (v : Nat) : (s.setResult v).bn = s.bn := rfl
@[simp] theorem setResult_rsaN (v : Nat) : (s.setResult v).rsaN = s.rsaN := rfl
@[simp] theorem setResult_rsaE (v : Nat) : (s.setResult v).rsaE = s.rsaE := rfl
@[simp] theorem setResult_rsaBits (v : Nat) : (s.setResult v).rsaBits = s.rsaBits := rfl
@[simp] theorem setResult_rsaKlen (v : Nat) : (s.setResult v).rsaKlen = s.rsaKlen := rfl
@[simp] theorem setResult_rsaKv (v : Nat) : (s.setResult v).rsaKv = s.rsaKv := rfl
@[simp] theorem setResult_slots (v : Nat) : (s.setResult v).slots = s.slots := rfl
@[simp] theorem setResult_shaH (v : Nat) : (s.setResult v).shaH = s.shaH := rfl
@[simp] theorem setResult_shaCnt (v : Nat) : (s.setResult v).shaCnt = s.shaCnt := rfl
@[simp] theorem setResult_shaValid (v : Nat) : (s.setResult v).shaValid = s.shaValid := rfl
@[simp] theorem setResult_mem (v : Nat) : (s.setResult v).mem = s.mem := rfl
@[simp] theorem setResult_inputs (v : Nat) : (s.setResult v).inputs = s.inputs := rfl
@[simp] theorem setResult_rdata (v : Nat) : (s.setResult v).rdata = s.rdata := rfl
@[simp] theorem setResult_draws (v : Nat) : (s.setResult v).draws = s.draws := rfl

/-! ### `setVok` -/

@[simp] theorem setVok_cmd (b : Bool) : (s.setVok b).cmd = s.cmd := rfl
@[simp] theorem setVok_busy (b : Bool) : (s.setVok b).busy = s.busy := rfl
@[simp] theorem setVok_vok (b : Bool) : (s.setVok b).vok = b := rfl
@[simp] theorem setVok_cmp (b : Bool) : (s.setVok b).cmp = s.cmp := rfl
@[simp] theorem setVok_err (b : Bool) : (s.setVok b).err = s.err := rfl
@[simp] theorem setVok_doneEn (b : Bool) : (s.setVok b).doneEn = s.doneEn := rfl
@[simp] theorem setVok_ovrEn (b : Bool) : (s.setVok b).ovrEn = s.ovrEn := rfl
@[simp] theorem setVok_intDone (b : Bool) : (s.setVok b).intDone = s.intDone := rfl
@[simp] theorem setVok_intOvr (b : Bool) : (s.setVok b).intOvr = s.intOvr := rfl
@[simp] theorem setVok_result (b : Bool) : (s.setVok b).result = s.result := rfl
@[simp] theorem setVok_dataOff (b : Bool) : (s.setVok b).dataOff = s.dataOff := rfl
@[simp] theorem setVok_dataLen (b : Bool) : (s.setVok b).dataLen = s.dataLen := rfl
@[simp] theorem setVok_bnShamt (b : Bool) : (s.setVok b).bnShamt = s.bnShamt := rfl
@[simp] theorem setVok_aadLen (b : Bool) : (s.setVok b).aadLen = s.aadLen := rfl
@[simp] theorem setVok_hkeyLen (b : Bool) : (s.setVok b).hkeyLen = s.hkeyLen := rfl
@[simp] theorem setVok_bn (b : Bool) : (s.setVok b).bn = s.bn := rfl
@[simp] theorem setVok_rsaN (b : Bool) : (s.setVok b).rsaN = s.rsaN := rfl
@[simp] theorem setVok_rsaE (b : Bool) : (s.setVok b).rsaE = s.rsaE := rfl
@[simp] theorem setVok_rsaBits (b : Bool) : (s.setVok b).rsaBits = s.rsaBits := rfl
@[simp] theorem setVok_rsaKlen (b : Bool) : (s.setVok b).rsaKlen = s.rsaKlen := rfl
@[simp] theorem setVok_rsaKv (b : Bool) : (s.setVok b).rsaKv = s.rsaKv := rfl
@[simp] theorem setVok_slots (b : Bool) : (s.setVok b).slots = s.slots := rfl
@[simp] theorem setVok_shaH (b : Bool) : (s.setVok b).shaH = s.shaH := rfl
@[simp] theorem setVok_shaCnt (b : Bool) : (s.setVok b).shaCnt = s.shaCnt := rfl
@[simp] theorem setVok_shaValid (b : Bool) : (s.setVok b).shaValid = s.shaValid := rfl
@[simp] theorem setVok_mem (b : Bool) : (s.setVok b).mem = s.mem := rfl
@[simp] theorem setVok_inputs (b : Bool) : (s.setVok b).inputs = s.inputs := rfl
@[simp] theorem setVok_rdata (b : Bool) : (s.setVok b).rdata = s.rdata := rfl
@[simp] theorem setVok_draws (b : Bool) : (s.setVok b).draws = s.draws := rfl

/-! ### `setCmp` -/

@[simp] theorem setCmp_cmd (c : CmpFlag) : (s.setCmp c).cmd = s.cmd := rfl
@[simp] theorem setCmp_busy (c : CmpFlag) : (s.setCmp c).busy = s.busy := rfl
@[simp] theorem setCmp_vok (c : CmpFlag) : (s.setCmp c).vok = s.vok := rfl
@[simp] theorem setCmp_cmp (c : CmpFlag) : (s.setCmp c).cmp = c := rfl
@[simp] theorem setCmp_err (c : CmpFlag) : (s.setCmp c).err = s.err := rfl
@[simp] theorem setCmp_doneEn (c : CmpFlag) : (s.setCmp c).doneEn = s.doneEn := rfl
@[simp] theorem setCmp_ovrEn (c : CmpFlag) : (s.setCmp c).ovrEn = s.ovrEn := rfl
@[simp] theorem setCmp_intDone (c : CmpFlag) : (s.setCmp c).intDone = s.intDone := rfl
@[simp] theorem setCmp_intOvr (c : CmpFlag) : (s.setCmp c).intOvr = s.intOvr := rfl
@[simp] theorem setCmp_result (c : CmpFlag) : (s.setCmp c).result = s.result := rfl
@[simp] theorem setCmp_dataOff (c : CmpFlag) : (s.setCmp c).dataOff = s.dataOff := rfl
@[simp] theorem setCmp_dataLen (c : CmpFlag) : (s.setCmp c).dataLen = s.dataLen := rfl
@[simp] theorem setCmp_bnShamt (c : CmpFlag) : (s.setCmp c).bnShamt = s.bnShamt := rfl
@[simp] theorem setCmp_aadLen (c : CmpFlag) : (s.setCmp c).aadLen = s.aadLen := rfl
@[simp] theorem setCmp_hkeyLen (c : CmpFlag) : (s.setCmp c).hkeyLen = s.hkeyLen := rfl
@[simp] theorem setCmp_bn (c : CmpFlag) : (s.setCmp c).bn = s.bn := rfl
@[simp] theorem setCmp_rsaN (c : CmpFlag) : (s.setCmp c).rsaN = s.rsaN := rfl
@[simp] theorem setCmp_rsaE (c : CmpFlag) : (s.setCmp c).rsaE = s.rsaE := rfl
@[simp] theorem setCmp_rsaBits (c : CmpFlag) : (s.setCmp c).rsaBits = s.rsaBits := rfl
@[simp] theorem setCmp_rsaKlen (c : CmpFlag) : (s.setCmp c).rsaKlen = s.rsaKlen := rfl
@[simp] theorem setCmp_rsaKv (c : CmpFlag) : (s.setCmp c).rsaKv = s.rsaKv := rfl
@[simp] theorem setCmp_slots (c : CmpFlag) : (s.setCmp c).slots = s.slots := rfl
@[simp] theorem setCmp_shaH (c : CmpFlag) : (s.setCmp c).shaH = s.shaH := rfl
@[simp] theorem setCmp_shaCnt (c : CmpFlag) : (s.setCmp c).shaCnt = s.shaCnt := rfl
@[simp] theorem setCmp_shaValid (c : CmpFlag) : (s.setCmp c).shaValid = s.shaValid := rfl
@[simp] theorem setCmp_mem (c : CmpFlag) : (s.setCmp c).mem = s.mem := rfl
@[simp] theorem setCmp_inputs (c : CmpFlag) : (s.setCmp c).inputs = s.inputs := rfl
@[simp] theorem setCmp_rdata (c : CmpFlag) : (s.setCmp c).rdata = s.rdata := rfl
@[simp] theorem setCmp_draws (c : CmpFlag) : (s.setCmp c).draws = s.draws := rfl

/-! ### `setSlot` -/

@[simp] theorem setSlot_cmd (k : Slot) (v : KeySlot) : (s.setSlot k v).cmd = s.cmd := rfl
@[simp] theorem setSlot_busy (k : Slot) (v : KeySlot) : (s.setSlot k v).busy = s.busy := rfl
@[simp] theorem setSlot_vok (k : Slot) (v : KeySlot) : (s.setSlot k v).vok = s.vok := rfl
@[simp] theorem setSlot_cmp (k : Slot) (v : KeySlot) : (s.setSlot k v).cmp = s.cmp := rfl
@[simp] theorem setSlot_err (k : Slot) (v : KeySlot) : (s.setSlot k v).err = s.err := rfl
@[simp] theorem setSlot_doneEn (k : Slot) (v : KeySlot) : (s.setSlot k v).doneEn = s.doneEn := rfl
@[simp] theorem setSlot_ovrEn (k : Slot) (v : KeySlot) : (s.setSlot k v).ovrEn = s.ovrEn := rfl
@[simp] theorem setSlot_intDone (k : Slot) (v : KeySlot) : (s.setSlot k v).intDone = s.intDone := rfl
@[simp] theorem setSlot_intOvr (k : Slot) (v : KeySlot) : (s.setSlot k v).intOvr = s.intOvr := rfl
@[simp] theorem setSlot_result (k : Slot) (v : KeySlot) : (s.setSlot k v).result = s.result := rfl
@[simp] theorem setSlot_dataOff (k : Slot) (v : KeySlot) : (s.setSlot k v).dataOff = s.dataOff := rfl
@[simp] theorem setSlot_dataLen (k : Slot) (v : KeySlot) : (s.setSlot k v).dataLen = s.dataLen := rfl
@[simp] theorem setSlot_bnShamt (k : Slot) (v : KeySlot) : (s.setSlot k v).bnShamt = s.bnShamt := rfl
@[simp] theorem setSlot_aadLen (k : Slot) (v : KeySlot) : (s.setSlot k v).aadLen = s.aadLen := rfl
@[simp] theorem setSlot_hkeyLen (k : Slot) (v : KeySlot) : (s.setSlot k v).hkeyLen = s.hkeyLen := rfl
@[simp] theorem setSlot_bn (k : Slot) (v : KeySlot) : (s.setSlot k v).bn = s.bn := rfl
@[simp] theorem setSlot_rsaN (k : Slot) (v : KeySlot) : (s.setSlot k v).rsaN = s.rsaN := rfl
@[simp] theorem setSlot_rsaE (k : Slot) (v : KeySlot) : (s.setSlot k v).rsaE = s.rsaE := rfl
@[simp] theorem setSlot_rsaBits (k : Slot) (v : KeySlot) : (s.setSlot k v).rsaBits = s.rsaBits := rfl
@[simp] theorem setSlot_rsaKlen (k : Slot) (v : KeySlot) : (s.setSlot k v).rsaKlen = s.rsaKlen := rfl
@[simp] theorem setSlot_rsaKv (k : Slot) (v : KeySlot) : (s.setSlot k v).rsaKv = s.rsaKv := rfl
@[simp] theorem setSlot_slots (k : Slot) (v : KeySlot) : (s.setSlot k v).slots = s.slots.set k v := rfl
@[simp] theorem setSlot_shaH (k : Slot) (v : KeySlot) : (s.setSlot k v).shaH = s.shaH := rfl
@[simp] theorem setSlot_shaCnt (k : Slot) (v : KeySlot) : (s.setSlot k v).shaCnt = s.shaCnt := rfl
@[simp] theorem setSlot_shaValid (k : Slot) (v : KeySlot) : (s.setSlot k v).shaValid = s.shaValid := rfl
@[simp] theorem setSlot_mem (k : Slot) (v : KeySlot) : (s.setSlot k v).mem = s.mem := rfl
@[simp] theorem setSlot_inputs (k : Slot) (v : KeySlot) : (s.setSlot k v).inputs = s.inputs := rfl
@[simp] theorem setSlot_rdata (k : Slot) (v : KeySlot) : (s.setSlot k v).rdata = s.rdata := rfl
@[simp] theorem setSlot_draws (k : Slot) (v : KeySlot) : (s.setSlot k v).draws = s.draws := rfl

/-! ### `writeWindow` -/

@[simp] theorem writeWindow_cmd (base : Nat) (bs : List Byte) : (s.writeWindow base bs).cmd = s.cmd := rfl
@[simp] theorem writeWindow_busy (base : Nat) (bs : List Byte) : (s.writeWindow base bs).busy = s.busy := rfl
@[simp] theorem writeWindow_vok (base : Nat) (bs : List Byte) : (s.writeWindow base bs).vok = s.vok := rfl
@[simp] theorem writeWindow_cmp (base : Nat) (bs : List Byte) : (s.writeWindow base bs).cmp = s.cmp := rfl
@[simp] theorem writeWindow_err (base : Nat) (bs : List Byte) : (s.writeWindow base bs).err = s.err := rfl
@[simp] theorem writeWindow_doneEn (base : Nat) (bs : List Byte) : (s.writeWindow base bs).doneEn = s.doneEn := rfl
@[simp] theorem writeWindow_ovrEn (base : Nat) (bs : List Byte) : (s.writeWindow base bs).ovrEn = s.ovrEn := rfl
@[simp] theorem writeWindow_intDone (base : Nat) (bs : List Byte) : (s.writeWindow base bs).intDone = s.intDone := rfl
@[simp] theorem writeWindow_intOvr (base : Nat) (bs : List Byte) : (s.writeWindow base bs).intOvr = s.intOvr := rfl
@[simp] theorem writeWindow_result (base : Nat) (bs : List Byte) : (s.writeWindow base bs).result = s.result := rfl
@[simp] theorem writeWindow_dataOff (base : Nat) (bs : List Byte) : (s.writeWindow base bs).dataOff = s.dataOff := rfl
@[simp] theorem writeWindow_dataLen (base : Nat) (bs : List Byte) : (s.writeWindow base bs).dataLen = s.dataLen := rfl
@[simp] theorem writeWindow_bnShamt (base : Nat) (bs : List Byte) : (s.writeWindow base bs).bnShamt = s.bnShamt := rfl
@[simp] theorem writeWindow_aadLen (base : Nat) (bs : List Byte) : (s.writeWindow base bs).aadLen = s.aadLen := rfl
@[simp] theorem writeWindow_hkeyLen (base : Nat) (bs : List Byte) : (s.writeWindow base bs).hkeyLen = s.hkeyLen := rfl
@[simp] theorem writeWindow_bn (base : Nat) (bs : List Byte) : (s.writeWindow base bs).bn = s.bn := rfl
@[simp] theorem writeWindow_rsaN (base : Nat) (bs : List Byte) : (s.writeWindow base bs).rsaN = s.rsaN := rfl
@[simp] theorem writeWindow_rsaE (base : Nat) (bs : List Byte) : (s.writeWindow base bs).rsaE = s.rsaE := rfl
@[simp] theorem writeWindow_rsaBits (base : Nat) (bs : List Byte) : (s.writeWindow base bs).rsaBits = s.rsaBits := rfl
@[simp] theorem writeWindow_rsaKlen (base : Nat) (bs : List Byte) : (s.writeWindow base bs).rsaKlen = s.rsaKlen := rfl
@[simp] theorem writeWindow_rsaKv (base : Nat) (bs : List Byte) : (s.writeWindow base bs).rsaKv = s.rsaKv := rfl
@[simp] theorem writeWindow_slots (base : Nat) (bs : List Byte) : (s.writeWindow base bs).slots = s.slots := rfl
@[simp] theorem writeWindow_shaH (base : Nat) (bs : List Byte) : (s.writeWindow base bs).shaH = s.shaH := rfl
@[simp] theorem writeWindow_shaCnt (base : Nat) (bs : List Byte) : (s.writeWindow base bs).shaCnt = s.shaCnt := rfl
@[simp] theorem writeWindow_shaValid (base : Nat) (bs : List Byte) :
    (s.writeWindow base bs).shaValid = s.shaValid := rfl
@[simp] theorem writeWindow_mem (base : Nat) (bs : List Byte) :
    (s.writeWindow base bs).mem = Memory.writeBytes s.mem base bs := rfl
@[simp] theorem writeWindow_inputs (base : Nat) (bs : List Byte) : (s.writeWindow base bs).inputs = s.inputs := rfl
@[simp] theorem writeWindow_rdata (base : Nat) (bs : List Byte) : (s.writeWindow base bs).rdata = s.rdata := rfl
@[simp] theorem writeWindow_draws (base : Nat) (bs : List Byte) : (s.writeWindow base bs).draws = s.draws := rfl

/-! ### `setRsaKey` -/

@[simp] theorem setRsaKey_cmd (n e : Bignum) : (s.setRsaKey n e).cmd = s.cmd := rfl
@[simp] theorem setRsaKey_busy (n e : Bignum) : (s.setRsaKey n e).busy = s.busy := rfl
@[simp] theorem setRsaKey_vok (n e : Bignum) : (s.setRsaKey n e).vok = s.vok := rfl
@[simp] theorem setRsaKey_cmp (n e : Bignum) : (s.setRsaKey n e).cmp = s.cmp := rfl
@[simp] theorem setRsaKey_err (n e : Bignum) : (s.setRsaKey n e).err = s.err := rfl
@[simp] theorem setRsaKey_doneEn (n e : Bignum) : (s.setRsaKey n e).doneEn = s.doneEn := rfl
@[simp] theorem setRsaKey_ovrEn (n e : Bignum) : (s.setRsaKey n e).ovrEn = s.ovrEn := rfl
@[simp] theorem setRsaKey_intDone (n e : Bignum) : (s.setRsaKey n e).intDone = s.intDone := rfl
@[simp] theorem setRsaKey_intOvr (n e : Bignum) : (s.setRsaKey n e).intOvr = s.intOvr := rfl
@[simp] theorem setRsaKey_result (n e : Bignum) : (s.setRsaKey n e).result = s.result := rfl
@[simp] theorem setRsaKey_dataOff (n e : Bignum) : (s.setRsaKey n e).dataOff = s.dataOff := rfl
@[simp] theorem setRsaKey_dataLen (n e : Bignum) : (s.setRsaKey n e).dataLen = s.dataLen := rfl
@[simp] theorem setRsaKey_bnShamt (n e : Bignum) : (s.setRsaKey n e).bnShamt = s.bnShamt := rfl
@[simp] theorem setRsaKey_aadLen (n e : Bignum) : (s.setRsaKey n e).aadLen = s.aadLen := rfl
@[simp] theorem setRsaKey_hkeyLen (n e : Bignum) : (s.setRsaKey n e).hkeyLen = s.hkeyLen := rfl
@[simp] theorem setRsaKey_bn (n e : Bignum) : (s.setRsaKey n e).bn = s.bn := rfl
@[simp] theorem setRsaKey_rsaN (n e : Bignum) : (s.setRsaKey n e).rsaN = n := rfl
@[simp] theorem setRsaKey_rsaE (n e : Bignum) : (s.setRsaKey n e).rsaE = e := rfl
@[simp] theorem setRsaKey_rsaBits (n e : Bignum) :
    (s.setRsaKey n e).rsaBits = BitVec.ofNat 13 (bitLength n.toNat) := rfl
@[simp] theorem setRsaKey_rsaKlen (n e : Bignum) :
    (s.setRsaKey n e).rsaKlen = BitVec.ofNat 10 ((bitLength n.toNat + 7) / 8) := rfl
@[simp] theorem setRsaKey_rsaKv (n e : Bignum) : (s.setRsaKey n e).rsaKv = true := rfl
@[simp] theorem setRsaKey_slots (n e : Bignum) : (s.setRsaKey n e).slots = s.slots := rfl
@[simp] theorem setRsaKey_shaH (n e : Bignum) : (s.setRsaKey n e).shaH = s.shaH := rfl
@[simp] theorem setRsaKey_shaCnt (n e : Bignum) : (s.setRsaKey n e).shaCnt = s.shaCnt := rfl
@[simp] theorem setRsaKey_shaValid (n e : Bignum) : (s.setRsaKey n e).shaValid = s.shaValid := rfl
@[simp] theorem setRsaKey_mem (n e : Bignum) : (s.setRsaKey n e).mem = s.mem := rfl
@[simp] theorem setRsaKey_inputs (n e : Bignum) : (s.setRsaKey n e).inputs = s.inputs := rfl
@[simp] theorem setRsaKey_rdata (n e : Bignum) : (s.setRsaKey n e).rdata = s.rdata := rfl
@[simp] theorem setRsaKey_draws (n e : Bignum) : (s.setRsaKey n e).draws = s.draws := rfl

/-! ### `setShaContext` -/

@[simp] theorem setShaContext_cmd (c : ShaContext) (b : Bool) : (s.setShaContext c b).cmd = s.cmd := rfl
@[simp] theorem setShaContext_busy (c : ShaContext) (b : Bool) : (s.setShaContext c b).busy = s.busy := rfl
@[simp] theorem setShaContext_vok (c : ShaContext) (b : Bool) : (s.setShaContext c b).vok = s.vok := rfl
@[simp] theorem setShaContext_cmp (c : ShaContext) (b : Bool) : (s.setShaContext c b).cmp = s.cmp := rfl
@[simp] theorem setShaContext_err (c : ShaContext) (b : Bool) : (s.setShaContext c b).err = s.err := rfl
@[simp] theorem setShaContext_doneEn (c : ShaContext) (b : Bool) : (s.setShaContext c b).doneEn = s.doneEn := rfl
@[simp] theorem setShaContext_ovrEn (c : ShaContext) (b : Bool) : (s.setShaContext c b).ovrEn = s.ovrEn := rfl
@[simp] theorem setShaContext_intDone (c : ShaContext) (b : Bool) : (s.setShaContext c b).intDone = s.intDone := rfl
@[simp] theorem setShaContext_intOvr (c : ShaContext) (b : Bool) : (s.setShaContext c b).intOvr = s.intOvr := rfl
@[simp] theorem setShaContext_result (c : ShaContext) (b : Bool) : (s.setShaContext c b).result = s.result := rfl
@[simp] theorem setShaContext_dataOff (c : ShaContext) (b : Bool) : (s.setShaContext c b).dataOff = s.dataOff := rfl
@[simp] theorem setShaContext_dataLen (c : ShaContext) (b : Bool) : (s.setShaContext c b).dataLen = s.dataLen := rfl
@[simp] theorem setShaContext_bnShamt (c : ShaContext) (b : Bool) : (s.setShaContext c b).bnShamt = s.bnShamt := rfl
@[simp] theorem setShaContext_aadLen (c : ShaContext) (b : Bool) : (s.setShaContext c b).aadLen = s.aadLen := rfl
@[simp] theorem setShaContext_hkeyLen (c : ShaContext) (b : Bool) : (s.setShaContext c b).hkeyLen = s.hkeyLen := rfl
@[simp] theorem setShaContext_bn (c : ShaContext) (b : Bool) : (s.setShaContext c b).bn = s.bn := rfl
@[simp] theorem setShaContext_rsaN (c : ShaContext) (b : Bool) : (s.setShaContext c b).rsaN = s.rsaN := rfl
@[simp] theorem setShaContext_rsaE (c : ShaContext) (b : Bool) : (s.setShaContext c b).rsaE = s.rsaE := rfl
@[simp] theorem setShaContext_rsaBits (c : ShaContext) (b : Bool) : (s.setShaContext c b).rsaBits = s.rsaBits := rfl
@[simp] theorem setShaContext_rsaKlen (c : ShaContext) (b : Bool) : (s.setShaContext c b).rsaKlen = s.rsaKlen := rfl
@[simp] theorem setShaContext_rsaKv (c : ShaContext) (b : Bool) : (s.setShaContext c b).rsaKv = s.rsaKv := rfl
@[simp] theorem setShaContext_slots (c : ShaContext) (b : Bool) : (s.setShaContext c b).slots = s.slots := rfl
@[simp] theorem setShaContext_shaH (c : ShaContext) (b : Bool) : (s.setShaContext c b).shaH = c.h := rfl
@[simp] theorem setShaContext_shaCnt (c : ShaContext) (b : Bool) : (s.setShaContext c b).shaCnt = c.cnt := rfl
@[simp] theorem setShaContext_shaValid (c : ShaContext) (b : Bool) : (s.setShaContext c b).shaValid = b := rfl
@[simp] theorem setShaContext_mem (c : ShaContext) (b : Bool) :
    (s.setShaContext c b).mem = Memory.writeBytes s.mem Win.shaBuf c.buf := rfl
@[simp] theorem setShaContext_inputs (c : ShaContext) (b : Bool) : (s.setShaContext c b).inputs = s.inputs := rfl
@[simp] theorem setShaContext_rdata (c : ShaContext) (b : Bool) : (s.setShaContext c b).rdata = s.rdata := rfl
@[simp] theorem setShaContext_draws (c : ShaContext) (b : Bool) : (s.setShaContext c b).draws = s.draws := rfl

/-! ### `writeIntEn` -/

@[simp] theorem writeIntEn_cmd (v : Word) : (s.writeIntEn v).cmd = s.cmd := rfl
@[simp] theorem writeIntEn_busy (v : Word) : (s.writeIntEn v).busy = s.busy := rfl
@[simp] theorem writeIntEn_vok (v : Word) : (s.writeIntEn v).vok = s.vok := rfl
@[simp] theorem writeIntEn_cmp (v : Word) : (s.writeIntEn v).cmp = s.cmp := rfl
@[simp] theorem writeIntEn_err (v : Word) : (s.writeIntEn v).err = s.err := rfl
@[simp] theorem writeIntEn_doneEn (v : Word) : (s.writeIntEn v).doneEn = v.getLsbD 0 := rfl
@[simp] theorem writeIntEn_ovrEn (v : Word) : (s.writeIntEn v).ovrEn = v.getLsbD 1 := rfl
@[simp] theorem writeIntEn_intDone (v : Word) : (s.writeIntEn v).intDone = s.intDone := rfl
@[simp] theorem writeIntEn_intOvr (v : Word) : (s.writeIntEn v).intOvr = s.intOvr := rfl
@[simp] theorem writeIntEn_result (v : Word) : (s.writeIntEn v).result = s.result := rfl
@[simp] theorem writeIntEn_dataOff (v : Word) : (s.writeIntEn v).dataOff = s.dataOff := rfl
@[simp] theorem writeIntEn_dataLen (v : Word) : (s.writeIntEn v).dataLen = s.dataLen := rfl
@[simp] theorem writeIntEn_bnShamt (v : Word) : (s.writeIntEn v).bnShamt = s.bnShamt := rfl
@[simp] theorem writeIntEn_aadLen (v : Word) : (s.writeIntEn v).aadLen = s.aadLen := rfl
@[simp] theorem writeIntEn_hkeyLen (v : Word) : (s.writeIntEn v).hkeyLen = s.hkeyLen := rfl
@[simp] theorem writeIntEn_bn (v : Word) : (s.writeIntEn v).bn = s.bn := rfl
@[simp] theorem writeIntEn_rsaN (v : Word) : (s.writeIntEn v).rsaN = s.rsaN := rfl
@[simp] theorem writeIntEn_rsaE (v : Word) : (s.writeIntEn v).rsaE = s.rsaE := rfl
@[simp] theorem writeIntEn_rsaBits (v : Word) : (s.writeIntEn v).rsaBits = s.rsaBits := rfl
@[simp] theorem writeIntEn_rsaKlen (v : Word) : (s.writeIntEn v).rsaKlen = s.rsaKlen := rfl
@[simp] theorem writeIntEn_rsaKv (v : Word) : (s.writeIntEn v).rsaKv = s.rsaKv := rfl
@[simp] theorem writeIntEn_slots (v : Word) : (s.writeIntEn v).slots = s.slots := rfl
@[simp] theorem writeIntEn_shaH (v : Word) : (s.writeIntEn v).shaH = s.shaH := rfl
@[simp] theorem writeIntEn_shaCnt (v : Word) : (s.writeIntEn v).shaCnt = s.shaCnt := rfl
@[simp] theorem writeIntEn_shaValid (v : Word) : (s.writeIntEn v).shaValid = s.shaValid := rfl
@[simp] theorem writeIntEn_mem (v : Word) : (s.writeIntEn v).mem = s.mem := rfl
@[simp] theorem writeIntEn_inputs (v : Word) : (s.writeIntEn v).inputs = s.inputs := rfl
@[simp] theorem writeIntEn_rdata (v : Word) : (s.writeIntEn v).rdata = s.rdata := rfl
@[simp] theorem writeIntEn_draws (v : Word) : (s.writeIntEn v).draws = s.draws := rfl

/-! ### `clearIntStat` -/

@[simp] theorem clearIntStat_cmd (v : Word) : (s.clearIntStat v).cmd = s.cmd := rfl
@[simp] theorem clearIntStat_busy (v : Word) : (s.clearIntStat v).busy = s.busy := rfl
@[simp] theorem clearIntStat_vok (v : Word) : (s.clearIntStat v).vok = s.vok := rfl
@[simp] theorem clearIntStat_cmp (v : Word) : (s.clearIntStat v).cmp = s.cmp := rfl
@[simp] theorem clearIntStat_err (v : Word) : (s.clearIntStat v).err = s.err := rfl
@[simp] theorem clearIntStat_doneEn (v : Word) : (s.clearIntStat v).doneEn = s.doneEn := rfl
@[simp] theorem clearIntStat_ovrEn (v : Word) : (s.clearIntStat v).ovrEn = s.ovrEn := rfl
@[simp] theorem clearIntStat_intDone (v : Word) : (s.clearIntStat v).intDone = (s.intDone && !v.getLsbD 0) := rfl
@[simp] theorem clearIntStat_intOvr (v : Word) : (s.clearIntStat v).intOvr = (s.intOvr && !v.getLsbD 1) := rfl
@[simp] theorem clearIntStat_result (v : Word) : (s.clearIntStat v).result = s.result := rfl
@[simp] theorem clearIntStat_dataOff (v : Word) : (s.clearIntStat v).dataOff = s.dataOff := rfl
@[simp] theorem clearIntStat_dataLen (v : Word) : (s.clearIntStat v).dataLen = s.dataLen := rfl
@[simp] theorem clearIntStat_bnShamt (v : Word) : (s.clearIntStat v).bnShamt = s.bnShamt := rfl
@[simp] theorem clearIntStat_aadLen (v : Word) : (s.clearIntStat v).aadLen = s.aadLen := rfl
@[simp] theorem clearIntStat_hkeyLen (v : Word) : (s.clearIntStat v).hkeyLen = s.hkeyLen := rfl
@[simp] theorem clearIntStat_bn (v : Word) : (s.clearIntStat v).bn = s.bn := rfl
@[simp] theorem clearIntStat_rsaN (v : Word) : (s.clearIntStat v).rsaN = s.rsaN := rfl
@[simp] theorem clearIntStat_rsaE (v : Word) : (s.clearIntStat v).rsaE = s.rsaE := rfl
@[simp] theorem clearIntStat_rsaBits (v : Word) : (s.clearIntStat v).rsaBits = s.rsaBits := rfl
@[simp] theorem clearIntStat_rsaKlen (v : Word) : (s.clearIntStat v).rsaKlen = s.rsaKlen := rfl
@[simp] theorem clearIntStat_rsaKv (v : Word) : (s.clearIntStat v).rsaKv = s.rsaKv := rfl
@[simp] theorem clearIntStat_slots (v : Word) : (s.clearIntStat v).slots = s.slots := rfl
@[simp] theorem clearIntStat_shaH (v : Word) : (s.clearIntStat v).shaH = s.shaH := rfl
@[simp] theorem clearIntStat_shaCnt (v : Word) : (s.clearIntStat v).shaCnt = s.shaCnt := rfl
@[simp] theorem clearIntStat_shaValid (v : Word) : (s.clearIntStat v).shaValid = s.shaValid := rfl
@[simp] theorem clearIntStat_mem (v : Word) : (s.clearIntStat v).mem = s.mem := rfl
@[simp] theorem clearIntStat_inputs (v : Word) : (s.clearIntStat v).inputs = s.inputs := rfl
@[simp] theorem clearIntStat_rdata (v : Word) : (s.clearIntStat v).rdata = s.rdata := rfl
@[simp] theorem clearIntStat_draws (v : Word) : (s.clearIntStat v).draws = s.draws := rfl

/-! ### `acceptWord` -/

@[simp] theorem acceptWord_cmd (w : Word) : (s.acceptWord w).cmd = w := rfl
@[simp] theorem acceptWord_busy (w : Word) : (s.acceptWord w).busy = true := rfl
@[simp] theorem acceptWord_vok (w : Word) : (s.acceptWord w).vok = s.vok := rfl
@[simp] theorem acceptWord_cmp (w : Word) : (s.acceptWord w).cmp = s.cmp := rfl
@[simp] theorem acceptWord_err (w : Word) : (s.acceptWord w).err = s.err := rfl
@[simp] theorem acceptWord_doneEn (w : Word) : (s.acceptWord w).doneEn = s.doneEn := rfl
@[simp] theorem acceptWord_ovrEn (w : Word) : (s.acceptWord w).ovrEn = s.ovrEn := rfl
@[simp] theorem acceptWord_intDone (w : Word) : (s.acceptWord w).intDone = s.intDone := rfl
@[simp] theorem acceptWord_intOvr (w : Word) : (s.acceptWord w).intOvr = s.intOvr := rfl
@[simp] theorem acceptWord_result (w : Word) : (s.acceptWord w).result = s.result := rfl
@[simp] theorem acceptWord_dataOff (w : Word) : (s.acceptWord w).dataOff = s.dataOff := rfl
@[simp] theorem acceptWord_dataLen (w : Word) : (s.acceptWord w).dataLen = s.dataLen := rfl
@[simp] theorem acceptWord_bnShamt (w : Word) : (s.acceptWord w).bnShamt = s.bnShamt := rfl
@[simp] theorem acceptWord_aadLen (w : Word) : (s.acceptWord w).aadLen = s.aadLen := rfl
@[simp] theorem acceptWord_hkeyLen (w : Word) : (s.acceptWord w).hkeyLen = s.hkeyLen := rfl
@[simp] theorem acceptWord_bn (w : Word) : (s.acceptWord w).bn = s.bn := rfl
@[simp] theorem acceptWord_rsaN (w : Word) : (s.acceptWord w).rsaN = s.rsaN := rfl
@[simp] theorem acceptWord_rsaE (w : Word) : (s.acceptWord w).rsaE = s.rsaE := rfl
@[simp] theorem acceptWord_rsaBits (w : Word) : (s.acceptWord w).rsaBits = s.rsaBits := rfl
@[simp] theorem acceptWord_rsaKlen (w : Word) : (s.acceptWord w).rsaKlen = s.rsaKlen := rfl
@[simp] theorem acceptWord_rsaKv (w : Word) : (s.acceptWord w).rsaKv = s.rsaKv := rfl
@[simp] theorem acceptWord_slots (w : Word) : (s.acceptWord w).slots = s.slots := rfl
@[simp] theorem acceptWord_shaH (w : Word) : (s.acceptWord w).shaH = s.shaH := rfl
@[simp] theorem acceptWord_shaCnt (w : Word) : (s.acceptWord w).shaCnt = s.shaCnt := rfl
@[simp] theorem acceptWord_shaValid (w : Word) : (s.acceptWord w).shaValid = s.shaValid := rfl
@[simp] theorem acceptWord_mem (w : Word) : (s.acceptWord w).mem = s.mem := rfl
@[simp] theorem acceptWord_inputs (w : Word) : (s.acceptWord w).inputs = Input.engine :: s.inputs := rfl
@[simp] theorem acceptWord_rdata (w : Word) : (s.acceptWord w).rdata = s.rdata := rfl
@[simp] theorem acceptWord_draws (w : Word) : (s.acceptWord w).draws = s.draws := rfl

/-! ### `resetBlock` -/

@[simp] theorem resetBlock_cmd : (s.resetBlock).cmd = State.reset.cmd := rfl
@[simp] theorem resetBlock_busy : (s.resetBlock).busy = State.reset.busy := rfl
@[simp] theorem resetBlock_vok : (s.resetBlock).vok = State.reset.vok := rfl
@[simp] theorem resetBlock_cmp : (s.resetBlock).cmp = State.reset.cmp := rfl
@[simp] theorem resetBlock_err : (s.resetBlock).err = State.reset.err := rfl
@[simp] theorem resetBlock_doneEn : (s.resetBlock).doneEn = State.reset.doneEn := rfl
@[simp] theorem resetBlock_ovrEn : (s.resetBlock).ovrEn = State.reset.ovrEn := rfl
@[simp] theorem resetBlock_intDone : (s.resetBlock).intDone = State.reset.intDone := rfl
@[simp] theorem resetBlock_intOvr : (s.resetBlock).intOvr = State.reset.intOvr := rfl
@[simp] theorem resetBlock_result : (s.resetBlock).result = State.reset.result := rfl
@[simp] theorem resetBlock_dataOff : (s.resetBlock).dataOff = State.reset.dataOff := rfl
@[simp] theorem resetBlock_dataLen : (s.resetBlock).dataLen = State.reset.dataLen := rfl
@[simp] theorem resetBlock_bnShamt : (s.resetBlock).bnShamt = State.reset.bnShamt := rfl
@[simp] theorem resetBlock_aadLen : (s.resetBlock).aadLen = State.reset.aadLen := rfl
@[simp] theorem resetBlock_hkeyLen : (s.resetBlock).hkeyLen = State.reset.hkeyLen := rfl
@[simp] theorem resetBlock_bn : (s.resetBlock).bn = State.reset.bn := rfl
@[simp] theorem resetBlock_rsaN : (s.resetBlock).rsaN = State.reset.rsaN := rfl
@[simp] theorem resetBlock_rsaE : (s.resetBlock).rsaE = State.reset.rsaE := rfl
@[simp] theorem resetBlock_rsaBits : (s.resetBlock).rsaBits = State.reset.rsaBits := rfl
@[simp] theorem resetBlock_rsaKlen : (s.resetBlock).rsaKlen = State.reset.rsaKlen := rfl
@[simp] theorem resetBlock_rsaKv : (s.resetBlock).rsaKv = State.reset.rsaKv := rfl
@[simp] theorem resetBlock_slots : (s.resetBlock).slots = State.reset.slots := rfl
@[simp] theorem resetBlock_shaH : (s.resetBlock).shaH = State.reset.shaH := rfl
@[simp] theorem resetBlock_shaCnt : (s.resetBlock).shaCnt = State.reset.shaCnt := rfl
@[simp] theorem resetBlock_shaValid : (s.resetBlock).shaValid = State.reset.shaValid := rfl
@[simp] theorem resetBlock_mem : (s.resetBlock).mem = State.reset.mem := rfl
@[simp] theorem resetBlock_inputs : (s.resetBlock).inputs = s.inputs := rfl
@[simp] theorem resetBlock_rdata : (s.resetBlock).rdata = s.rdata := rfl
@[simp] theorem resetBlock_draws : (s.resetBlock).draws = s.draws := rfl

/-! ### Updates that are instances of the above -/

theorem dataWrite_eq (off : Nat) (bs : List Byte) : s.dataWrite off bs = s.writeWindow (Win.data + off) bs := rfl
theorem setDigest_eq (d : List Byte) : s.setDigest d = s.writeWindow Win.digest d := rfl
theorem setNu_eq (k : Slot) (b : Bool) : s.setNu k b = s.setSlot k { s.slot k with nu := b } := rfl

end Sys2Proof.Machine.State
end

