-- ==== Sys2Proof/Laws/Registers.lean ====
section
/-! SUPPORT. The register files: what a read gives after a write, and how a command ends. -/

namespace Sys2Proof.Machine

open Sys2Proof

@[simp] theorem BnFile.get_set_same (f : BnFile) (r : BnReg) (v : Bignum) : (f.set r v).get r = v := by
  cases r <;> rfl

theorem BnFile.get_set_other (f : BnFile) {r q : BnReg} (v : Bignum) (h : q ≠ r) :
    (f.set r v).get q = f.get q := by
  cases r <;> cases q <;> first | rfl | exact absurd rfl h

@[simp] theorem SlotFile.get_set_same (f : SlotFile) (k : Slot) (v : KeySlot) : (f.set k v).get k = v := by
  cases k <;> rfl

theorem SlotFile.get_set_other (f : SlotFile) {k j : Slot} (v : KeySlot) (h : j ≠ k) :
    (f.set k v).get j = f.get j := by
  cases k <;> cases j <;> first | rfl | exact absurd rfl h

/-- Two bignum files with the same registers are equal. -/
theorem BnFile.ext_get {f g : BnFile} (h : ∀ r, f.get r = g.get r) : f = g := by
  cases f; cases g
  have h0 := h .b0
  have h1 := h .b1
  have h2 := h .b2
  have h3 := h .b3
  simp only [BnFile.get] at h0 h1 h2 h3
  simp only [h0, h1, h2, h3]

/-- A value that fits is read back as it was written (`00_scope.md` R15). -/
theorem State.readBn_writeBn_same (s : State) (r : BnReg) {v : Nat} (h : v < 2 ^ Config.bnBits) :
    (s.writeBn r v).readBn r = v := by
  simp only [State.readBn, State.writeBn_bn, BnFile.get_set_same, BitVec.toNat_ofNat]
  exact Nat.mod_eq_of_lt h

theorem State.readBn_writeBn_other (s : State) {r q : BnReg} (v : Nat) (h : q ≠ r) :
    (s.writeBn r v).readBn q = s.readBn q := by
  simp only [State.readBn, State.writeBn_bn, BnFile.get_set_other _ _ h]

/-- A bignum register is below 2^4096 (`40_bignum.md` R83). -/
theorem State.readBn_lt (s : State) (r : BnReg) : s.readBn r < 2 ^ Config.bnBits := (s.bn.get r).isLt

@[simp] theorem State.readBn_finish (s : State) (e : ErrCode) (r : BnReg) :
    (s.finish e).readBn r = s.readBn r := rfl

@[simp] theorem State.slot_finish (s : State) (e : ErrCode) (k : Slot) : (s.finish e).slot k = s.slot k := rfl

@[simp] theorem State.slot_setSlot_same (s : State) (k : Slot) (v : KeySlot) : (s.setSlot k v).slot k = v := by
  simp only [State.slot, State.setSlot_slots, SlotFile.get_set_same]

theorem State.slot_setSlot_other (s : State) {k j : Slot} (v : KeySlot) (h : j ≠ k) :
    (s.setSlot k v).slot j = s.slot j := by
  simp only [State.slot, State.setSlot_slots, SlotFile.get_set_other _ _ h]

/-- Everything `complete` can do. -/
theorem State.complete_eq_next {s t : State} : s.complete = .next t ↔ t = s.finish .ok := by
  simp only [State.complete, Host.Outcome.next.injEq, eq_comm]

/-- Everything `fail` can do. -/
theorem State.fail_eq_next {s t : State} {e : ErrCode} : s.fail e = .next t ↔ t = s.finish e := by
  simp only [State.fail, Host.Outcome.next.injEq, eq_comm]

end Sys2Proof.Machine
end

