-- ==== Sys2Proof/Laws/Steps.lean ====
section
/-! SUPPORT. What each shared operation can do: if it answers `next`, then one of these cases. -/

namespace Sys2Proof.Machine

open Sys2Proof

/-- A host access is answered exactly where the block defines it (`20_memory.md` R54, R55, R67). -/
theorem hostAccess_eq_next {a : HostAccess} {s t : State} :
    hostAccess a s = .next t ↔ a.shape.wellFormed = true ∧ t = a.apply s := by
  unfold hostAccess AccessShape.wellFormed
  cases a.shape.inWindow <;> cases a.shape.wordWide <;> cases a.shape.aligned <;> simp [eq_comm]

/-- A defined access is refused by nothing. -/
theorem hostAccess_of_wellFormed {a : HostAccess} (s : State) (h : a.shape.wellFormed = true) :
    hostAccess a s = .next (a.apply s) :=
  hostAccess_eq_next.mpr ⟨h, rfl⟩

/-- A legal word runs its command. -/
theorem runCommand_of_decode {s : State} {i : Instr} (h : decode s.cmd = .ok i) : runCommand s = exec i s := by
  simp only [runCommand, h]

/-- An illegal word ends with E_ILLEGAL. -/
theorem runCommand_of_illegal {s : State} {e : DecodeError} (h : decode s.cmd = .error e) :
    runCommand s = .next (s.finish .illegal) := by
  simp only [runCommand, h, State.fail]

/-- Everything the engine's turn can do. -/
theorem engineTurn_eq_next {s t : State} (h : engineTurn s = .next t) :
    (s.busy = false ∧ t = s) ∨
    (s.busy = true ∧ ∃ i, decode s.cmd = .ok i ∧ exec i s = .next t) ∨
    (s.busy = true ∧ (∃ e, decode s.cmd = .error e) ∧ t = s.finish .illegal) := by
  unfold engineTurn at h
  split at h
  · next hb =>
      cases hd : decode s.cmd with
      | ok i => exact .inr (.inl ⟨hb, i, rfl, by rwa [runCommand_of_decode hd] at h⟩)
      | error e =>
          rw [runCommand_of_illegal hd] at h
          exact .inr (.inr ⟨hb, ⟨e, rfl⟩, (Host.Outcome.next.inj h).symm⟩)
  · next hb => exact .inl ⟨by simpa using hb, (Host.Outcome.next.inj h).symm⟩

/-- Everything a step can do: the engine's turn, a host access, or a reset. -/
theorem step_eq_next {s t : State} (h : step s = .next t) :
    (s.inputs = [] ∧ engineTurn s = .next t) ∨
    (∃ rest, s.inputs = .engine :: rest ∧ engineTurn { s with inputs := rest } = .next t) ∨
    (∃ a rest, s.inputs = .host a :: rest ∧ a.shape.wellFormed = true ∧
      t = a.apply { s with inputs := rest }) ∨
    (∃ rest, s.inputs = .hardReset :: rest ∧ t = State.resetBlock { s with inputs := rest }) := by
  unfold step nextStep at h
  split at h
  · next hi => exact .inl ⟨hi, h⟩
  · next rest hi => exact .inr (.inl ⟨rest, hi, h⟩)
  · next a rest hi =>
      obtain ⟨hw, ht⟩ := hostAccess_eq_next.mp h
      exact .inr (.inr (.inl ⟨a, rest, hi, hw, ht⟩))
  · next rest hi => exact .inr (.inr (.inr ⟨rest, hi, (Host.Outcome.next.inj h).symm⟩))

/-- The checks of a single-block command pass exactly where the key is there and the block in range. -/
theorem blockCheck_eq_none {s : State} {k : Slot} :
    s.blockCheck k = none ↔ (s.slot k).kv = true ∧ s.off + 16 ≤ 16384 := by
  unfold State.blockCheck inRange
  cases (s.slot k).kv <;> simp [Config.dataBytes]

/-- The checks of a CBC command pass exactly where key, range and alignment hold. -/
theorem cbcCheck_eq_none {s : State} {k : Slot} :
    s.cbcCheck k = none ↔ (s.slot k).kv = true ∧ s.off + s.len ≤ 16384 ∧ s.len % 16 = 0 := by
  unfold State.cbcCheck inRange
  cases (s.slot k).kv
  · simp
  · by_cases h1 : s.off + s.len ≤ 16384 <;> by_cases h2 : s.len % 16 = 0 <;> simp [h1, h2]

/-- The offset of an address in the window, whatever CRYPTO_BASE is. -/
theorem AccessShape.offset_of_base (w : AccessWidth) (off : Nat) :
    (AccessShape.mk w (Config.cryptoBase + off)).offset = off := by
  simp only [AccessShape.offset, Nat.add_sub_cancel_left]

/-- A 32-bit access at an aligned offset of the window is defined, whatever CRYPTO_BASE is. -/
theorem AccessShape.wellFormed_of_base {off : Nat} (h : off < 0x8000) (ha : off % 4 = 0) :
    (AccessShape.mk .word (Config.cryptoBase + off)).wellFormed = true := by
  simp [AccessShape.wellFormed, AccessShape.wordWide, AccessShape.inWindow, AccessShape.aligned,
    AccessShape.offset_of_base, h, ha]

end Sys2Proof.Machine
end

