-- ==== Sys2Proof/Machine/Assembler.lean ====
section
/-! DEFINITION. The spec's notation: assembler spelling (`30_encoding.md` R81) and host programs (R82). It is
"notation for the reader, not a command of the block": no step uses it. -/

namespace Sys2Proof.Machine

open Sys2Proof

/-- `b0`..`b3` (R81). -/
def regName : BnReg → String
  | .b0 => "b0"
  | .b1 => "b1"
  | .b2 => "b2"
  | .b3 => "b3"

/-- `s0`, `s1` (R81). -/
def slotName : Slot → String
  | .s0 => "s0"
  | .s1 => "s1"

/-- The assembler spelling of a command: the mnemonic in lower case with its unit prefix, then the fields
read, in the order RD, RS1, RS2, RM (R81). -/
def assembly : Instr → String
  | .nop => "nop"
  | .bnFromBytes d => "bn.frombytes " ++ regName d
  | .bnToBytes a => "bn.tobytes " ++ regName a
  | .bnAdd d a b => "bn.add " ++ regName d ++ ", " ++ regName a ++ ", " ++ regName b
  | .bnSub d a b => "bn.sub " ++ regName d ++ ", " ++ regName a ++ ", " ++ regName b
  | .bnMul d a b => "bn.mul " ++ regName d ++ ", " ++ regName a ++ ", " ++ regName b
  | .bnShl d a => "bn.shl " ++ regName d ++ ", " ++ regName a
  | .bnShr d a => "bn.shr " ++ regName d ++ ", " ++ regName a
  | .bnCmp a b => "bn.cmp " ++ regName a ++ ", " ++ regName b
  | .bnMod d a m => "bn.mod " ++ regName d ++ ", " ++ regName a ++ ", " ++ regName m
  | .bnModMul d a b m =>
      "bn.modmul " ++ regName d ++ ", " ++ regName a ++ ", " ++ regName b ++ ", " ++ regName m
  | .bnModExp d a b m =>
      "bn.modexp " ++ regName d ++ ", " ++ regName a ++ ", " ++ regName b ++ ", " ++ regName m
  | .bnBitLen a => "bn.bitlen " ++ regName a
  | .bnBitTest a => "bn.bittest " ++ regName a
  | .rsaSetKey e n => "rsa.setkey " ++ regName e ++ ", " ++ regName n
  | .rsaEnc => "rsa.enc"
  | .rsaVerify => "rsa.verify"
  | .aesKeyExp k => "aes.keyexp " ++ slotName k
  | .aesEncBlk k => "aes.encblk " ++ slotName k
  | .aesDecBlk k => "aes.decblk " ++ slotName k
  | .aesCbcEnc k => "aes.cbcenc " ++ slotName k
  | .aesCbcDec k => "aes.cbcdec " ++ slotName k
  | .gcmEnc k => "gcm.enc " ++ slotName k
  | .gcmDec k => "gcm.dec " ++ slotName k
  | .shaInit => "sha.init"
  | .shaUpdate => "sha.update"
  | .shaFinal => "sha.final"
  | .shaOneShot => "sha.oneshot"
  | .hmac => "hmac"

/-- The shape of a 32-bit access at an offset of the window (`20_memory.md` R54). -/
def wordAt (off : Nat) : AccessShape := { width := .word, addr := Config.cryptoBase + off }

/-- `w OFF, VALUE` (R82). -/
def hostW (off : Nat) (v : Word) : Input := .host (.write (wordAt off) v)

/-- `r OFF` (R82). -/
def hostR (off : Nat) : Input := .host (.read (wordAt off))

/-- `c <command>`: a write of the command's word to CMD (R82). -/
def hostC (i : Instr) : Input := hostW 0x0004 (encode i)

/-- `wait` on the schedule that takes the engine step at the first poll: the engine's turn, then the read of
STATUS that finds BUSY = 0 (R82, `95_test_vectors.md` section 3). -/
def hostWait : List Input := [.engine, hostR 0x0008]

/-- The words that hold `n` words of a byte string, the last padded with zero bytes. -/
def laneWords : Nat → List Byte → List Word
  | 0, _ => []
  | n + 1, s => lanesToWord (s.getD 0 0) (s.getD 1 0) (s.getD 2 0) (s.getD 3 0) :: laneWords n (s.drop 4)

/-- `wb NAME, bytes`: a byte string into a byte window from its byte 0 (R82). -/
def hostWb (base : Nat) (s : List Byte) : List Input :=
  (laneWords ((s.length + 3) / 4) s).zipIdx.map fun p => hostW (base + 4 * p.2) p.1

/-- `wn bI, v`: all 128 words of a bignum register, from its word 0's offset (R82). -/
def hostWn (base : Nat) (v : Nat) : List Input :=
  (List.range 128).map fun j => hostW (base + 4 * j) (BitVec.ofNat 32 (v >>> (32 * j)))

end Sys2Proof.Machine
end

