-- ==== Sys2Proof/Tests/Slice0.lean ====
section
/-! SUPPORT. The model's own tests. Expected values come from the spec's vectors (`95_test_vectors.md`, cited by
their number) or its rules; every test is one step on a small state. Then, for every statement with
hypotheses, a state and operands that meet them, at the boundary of each clause's range. -/

namespace Sys2Proof.Tests

open Sys2Proof Sys2Proof.Machine

set_option Elab.async false

/-! ### Helpers -/

/-- A command word written out field by field: SLOT, RM, RS2, RS1, RD, OP under 15 zero bits
(`30_encoding.md` R74). -/
def bits (slot : BitVec 1) (rm rs2 rs1 rd : BitVec 2) (op : BitVec 8) : Word :=
  (0 : BitVec 15) ++ slot ++ rm ++ rs2 ++ rs1 ++ rd ++ op

/-- The word decodes to the command. -/
def decodesTo (w : Word) (i : Instr) : Bool :=
  match decode w with
  | .ok j => j == i
  | .error _ => false

/-- The word is refused for this reason. -/
def decodeFails (w : Word) (e : DecodeError) : Bool :=
  match decode w with
  | .ok _ => false
  | .error e' => e' == e

/-- The outcome is a next state that passes a check. -/
def ran (o : Result) (check : State → Bool) : Bool :=
  match o with
  | .next t => check t
  | _ => false

/-- Run the command and check ERR and one thing more. -/
def runs (i : Instr) (s : State) (e : ErrCode) (check : State → Bool) : Bool :=
  ran (exec i s) fun t => t.err == e && !t.busy && t.intDone && check t

/-- Reset, with BN0 to BN3 holding these values. -/
def bnState (a b c d : Nat) : State :=
  (((State.reset.writeBn .b0 a).writeBn .b1 b).writeBn .b2 c).writeBn .b3 d

/-- `s` with this DATA operand in place. -/
def withData (s : State) (off : Nat) (bs : List Byte) : State :=
  { s.dataWrite off bs with dataOff := BitVec.ofNat 32 off, dataLen := BitVec.ofNat 32 bs.length }

/-- `s` with DATA_OFF and DATA_LEN only. -/
def withRange (s : State) (off len : Nat) : State :=
  { s with dataOff := BitVec.ofNat 32 off, dataLen := BitVec.ofNat 32 len }

/-- A byte string from its big-endian number. -/
def hex (n v : Nat) : List Byte := toBytes v n

/-- The FIPS-197 key of the source's §8 and the block of its vector. -/
def key1 : List Byte := hex 16 0x000102030405060708090a0b0c0d0e0f
def block1 : List Byte := hex 16 0x00112233445566778899aabbccddeeff
def cipher1 : List Byte := hex 16 0x69c4e0d86a7b0430d8cdb78070b4c55a

/-- The first 64 primes. -/
def primes64 : List Nat :=
  (List.range 312).filter fun n => decide (2 ≤ n) && (List.range 18).all fun d => d < 2 || n ≤ d || n % d != 0

/-- Reset, with slot `k` holding the schedule of a key. -/
def keyed (k : Slot) (key : List Byte) : State :=
  State.reset.setSlot k { rk := keySchedule key, kv := true, nu := false }

/-- Reset, with the 96-bit RSA key of `95_test_vectors.md` 2.3. -/
def n96 : Bignum := 0x9C000000EE2CB00031FC55AB
def rsa96 : State := State.reset.setRsaKey n96 65537

/-- Reset, with an RSA modulus of 489 bits, the shortest whose `k` is 62. -/
def rsa62 : State := State.reset.setRsaKey (BitVec.twoPow 4096 488) 1

/-! ### Ill-formed words and accesses are refused (`30_encoding.md` R80, `20_memory.md` R55, R67) -/

/-- Vector E3: bit 17. -/
theorem test_wf_reserved_bit : (CommandWord.ofWord 0x00020000).reservedClear = false := by decide
/-- Vector E6: OP 0x1D. -/
theorem test_wf_unassigned_opcode : (CommandWord.ofWord 0x0000001D).opcodeAssigned = false := by decide
theorem test_wf_refuses_both :
    (CommandWord.ofWord 0x00020000).wellFormed = false ∧ (CommandWord.ofWord 0x0000001D).wellFormed = false ∧
      (CommandWord.ofWord 0x00002412).wellFormed = true := by decide
/-- An 8-byte access. -/
theorem test_wf_double_access : (AccessShape.mk .double (Config.cryptoBase + 8)).wordWide = false := rfl
/-- An offset that is not a multiple of 4. -/
theorem test_wf_misaligned : (AccessShape.mk .word (Config.cryptoBase + 6)).aligned = false := by
  simp [AccessShape.aligned, AccessShape.offset]
/-- The first offset past the window. -/
theorem test_wf_outside : (AccessShape.mk .word (Config.cryptoBase + 0x8000)).inWindow = false := by
  simp [AccessShape.inWindow]
theorem test_wf_last_word : (AccessShape.mk .word (Config.cryptoBase + 0x7FFC)).wellFormed = true :=
  AccessShape.wellFormed_of_base (by decide) (by decide)

/-! ### Decoding: the words of `95_test_vectors.md` 2.1, bit by bit -/

/-- `nop` is 0x00000000. -/
theorem test_decode_nop :
    bits 0 0 0 0 0 0x00 = 0x00000000 ∧ decodesTo 0x00000000 (.nop) = true ∧ assembly (.nop) = "nop" := by decide
/-- `bn.frombytes b3` is 0x00000310. -/
theorem test_decode_bnFromBytes :
    bits 0 0 0 0 3 0x10 = 0x00000310 ∧ decodesTo 0x00000310 (.bnFromBytes .b3) = true ∧ assembly (.bnFromBytes .b3) = "bn.frombytes b3" := by decide
/-- `bn.tobytes b2` is 0x00000811. -/
theorem test_decode_bnToBytes :
    bits 0 0 0 2 0 0x11 = 0x00000811 ∧ decodesTo 0x00000811 (.bnToBytes .b2) = true ∧ assembly (.bnToBytes .b2) = "bn.tobytes b2" := by decide
/-- `bn.add b0, b1, b2` is 0x00002412. -/
theorem test_decode_bnAdd :
    bits 0 0 2 1 0 0x12 = 0x00002412 ∧ decodesTo 0x00002412 (.bnAdd .b0 .b1 .b2) = true ∧ assembly (.bnAdd .b0 .b1 .b2) = "bn.add b0, b1, b2" := by decide
/-- `bn.sub b0, b1, b2` is 0x00002413. -/
theorem test_decode_bnSub :
    bits 0 0 2 1 0 0x13 = 0x00002413 ∧ decodesTo 0x00002413 (.bnSub .b0 .b1 .b2) = true ∧ assembly (.bnSub .b0 .b1 .b2) = "bn.sub b0, b1, b2" := by decide
/-- `bn.mul b0, b1, b2` is 0x00002414. -/
theorem test_decode_bnMul :
    bits 0 0 2 1 0 0x14 = 0x00002414 ∧ decodesTo 0x00002414 (.bnMul .b0 .b1 .b2) = true ∧ assembly (.bnMul .b0 .b1 .b2) = "bn.mul b0, b1, b2" := by decide
/-- `bn.shl b2, b1` is 0x00000615. -/
theorem test_decode_bnShl :
    bits 0 0 0 1 2 0x15 = 0x00000615 ∧ decodesTo 0x00000615 (.bnShl .b2 .b1) = true ∧ assembly (.bnShl .b2 .b1) = "bn.shl b2, b1" := by decide
/-- `bn.shr b2, b1` is 0x00000616. -/
theorem test_decode_bnShr :
    bits 0 0 0 1 2 0x16 = 0x00000616 ∧ decodesTo 0x00000616 (.bnShr .b2 .b1) = true ∧ assembly (.bnShr .b2 .b1) = "bn.shr b2, b1" := by decide
/-- `bn.cmp b0, b1` is 0x00001017. -/
theorem test_decode_bnCmp :
    bits 0 0 1 0 0 0x17 = 0x00001017 ∧ decodesTo 0x00001017 (.bnCmp .b0 .b1) = true ∧ assembly (.bnCmp .b0 .b1) = "bn.cmp b0, b1" := by decide
/-- `bn.mod b0, b1, b3` is 0x0000C418. -/
theorem test_decode_bnMod :
    bits 0 3 0 1 0 0x18 = 0x0000C418 ∧ decodesTo 0x0000C418 (.bnMod .b0 .b1 .b3) = true ∧ assembly (.bnMod .b0 .b1 .b3) = "bn.mod b0, b1, b3" := by decide
/-- `bn.modmul b0, b1, b2, b3` is 0x0000E419. -/
theorem test_decode_bnModMul :
    bits 0 3 2 1 0 0x19 = 0x0000E419 ∧ decodesTo 0x0000E419 (.bnModMul .b0 .b1 .b2 .b3) = true ∧ assembly (.bnModMul .b0 .b1 .b2 .b3) = "bn.modmul b0, b1, b2, b3" := by decide
/-- `bn.modexp b0, b1, b2, b3` is 0x0000E41A. -/
theorem test_decode_bnModExp :
    bits 0 3 2 1 0 0x1A = 0x0000E41A ∧ decodesTo 0x0000E41A (.bnModExp .b0 .b1 .b2 .b3) = true ∧ assembly (.bnModExp .b0 .b1 .b2 .b3) = "bn.modexp b0, b1, b2, b3" := by decide
/-- `bn.bitlen b2` is 0x0000081B. -/
theorem test_decode_bnBitLen :
    bits 0 0 0 2 0 0x1B = 0x0000081B ∧ decodesTo 0x0000081B (.bnBitLen .b2) = true ∧ assembly (.bnBitLen .b2) = "bn.bitlen b2" := by decide
/-- `bn.bittest b2` is 0x0000081C. -/
theorem test_decode_bnBitTest :
    bits 0 0 0 2 0 0x1C = 0x0000081C ∧ decodesTo 0x0000081C (.bnBitTest .b2) = true ∧ assembly (.bnBitTest .b2) = "bn.bittest b2" := by decide
/-- `rsa.setkey b1, b2` is 0x00009020. -/
theorem test_decode_rsaSetKey :
    bits 0 2 1 0 0 0x20 = 0x00009020 ∧ decodesTo 0x00009020 (.rsaSetKey .b1 .b2) = true ∧ assembly (.rsaSetKey .b1 .b2) = "rsa.setkey b1, b2" := by decide
/-- `rsa.enc` is 0x00000021. -/
theorem test_decode_rsaEnc :
    bits 0 0 0 0 0 0x21 = 0x00000021 ∧ decodesTo 0x00000021 (.rsaEnc) = true ∧ assembly (.rsaEnc) = "rsa.enc" := by decide
/-- `rsa.verify` is 0x00000022. -/
theorem test_decode_rsaVerify :
    bits 0 0 0 0 0 0x22 = 0x00000022 ∧ decodesTo 0x00000022 (.rsaVerify) = true ∧ assembly (.rsaVerify) = "rsa.verify" := by decide
/-- `aes.keyexp s1` is 0x00010030. -/
theorem test_decode_aesKeyExp :
    bits 1 0 0 0 0 0x30 = 0x00010030 ∧ decodesTo 0x00010030 (.aesKeyExp .s1) = true ∧ assembly (.aesKeyExp .s1) = "aes.keyexp s1" := by decide
/-- `aes.encblk s1` is 0x00010031. -/
theorem test_decode_aesEncBlk :
    bits 1 0 0 0 0 0x31 = 0x00010031 ∧ decodesTo 0x00010031 (.aesEncBlk .s1) = true ∧ assembly (.aesEncBlk .s1) = "aes.encblk s1" := by decide
/-- `aes.decblk s1` is 0x00010032. -/
theorem test_decode_aesDecBlk :
    bits 1 0 0 0 0 0x32 = 0x00010032 ∧ decodesTo 0x00010032 (.aesDecBlk .s1) = true ∧ assembly (.aesDecBlk .s1) = "aes.decblk s1" := by decide
/-- `aes.cbcenc s1` is 0x00010033. -/
theorem test_decode_aesCbcEnc :
    bits 1 0 0 0 0 0x33 = 0x00010033 ∧ decodesTo 0x00010033 (.aesCbcEnc .s1) = true ∧ assembly (.aesCbcEnc .s1) = "aes.cbcenc s1" := by decide
/-- `aes.cbcdec s1` is 0x00010034. -/
theorem test_decode_aesCbcDec :
    bits 1 0 0 0 0 0x34 = 0x00010034 ∧ decodesTo 0x00010034 (.aesCbcDec .s1) = true ∧ assembly (.aesCbcDec .s1) = "aes.cbcdec s1" := by decide
/-- `gcm.enc s1` is 0x00010035. -/
theorem test_decode_gcmEnc :
    bits 1 0 0 0 0 0x35 = 0x00010035 ∧ decodesTo 0x00010035 (.gcmEnc .s1) = true ∧ assembly (.gcmEnc .s1) = "gcm.enc s1" := by decide
/-- `gcm.dec s1` is 0x00010036. -/
theorem test_decode_gcmDec :
    bits 1 0 0 0 0 0x36 = 0x00010036 ∧ decodesTo 0x00010036 (.gcmDec .s1) = true ∧ assembly (.gcmDec .s1) = "gcm.dec s1" := by decide
/-- `sha.init` is 0x00000040. -/
theorem test_decode_shaInit :
    bits 0 0 0 0 0 0x40 = 0x00000040 ∧ decodesTo 0x00000040 (.shaInit) = true ∧ assembly (.shaInit) = "sha.init" := by decide
/-- `sha.update` is 0x00000041. -/
theorem test_decode_shaUpdate :
    bits 0 0 0 0 0 0x41 = 0x00000041 ∧ decodesTo 0x00000041 (.shaUpdate) = true ∧ assembly (.shaUpdate) = "sha.update" := by decide
/-- `sha.final` is 0x00000042. -/
theorem test_decode_shaFinal :
    bits 0 0 0 0 0 0x42 = 0x00000042 ∧ decodesTo 0x00000042 (.shaFinal) = true ∧ assembly (.shaFinal) = "sha.final" := by decide
/-- `sha.oneshot` is 0x00000043. -/
theorem test_decode_shaOneShot :
    bits 0 0 0 0 0 0x43 = 0x00000043 ∧ decodesTo 0x00000043 (.shaOneShot) = true ∧ assembly (.shaOneShot) = "sha.oneshot" := by decide
/-- `hmac` is 0x00000044. -/
theorem test_decode_hmac :
    bits 0 0 0 0 0 0x44 = 0x00000044 ∧ decodesTo 0x00000044 (.hmac) = true ∧ assembly (.hmac) = "hmac" := by decide

/-- Vectors E3, E4 and E5, E6, E7, E8, E9, E10: reserved bits and unassigned opcodes. -/
theorem test_decode_illegal :
    decodeFails 0x00020000 .reservedBits = true ∧ decodeFails 0x80000000 .reservedBits = true ∧
      decodeFails 0x00000001 .unassignedOpcode = true ∧ decodeFails 0x0000001D .unassignedOpcode = true ∧
      decodeFails 0x00000023 .unassignedOpcode = true ∧ decodeFails 0x00000037 .unassignedOpcode = true ∧
      decodeFails 0x00000045 .unassignedOpcode = true ∧ decodeFails 0x000000FF .unassignedOpcode = true := by
  decide

/-- Vectors E11 and E12: ignored fields. -/
theorem test_decode_ignored_fields :
    decodesTo 0x0001FF00 .nop = true ∧ decodesTo 0x00012412 (.bnAdd .b0 .b1 .b2) = true := by decide

/-- The table's words are the words CMD holds. -/
theorem test_decodeTableWord : decodeTableWord 32 0x9020 = some (.rsaSetKey .b1 .b2) := by decide

/-! ### Control -/

theorem test_nop : runs .nop { State.reset with err := .underflow } .ok (fun t => t.mem == []) = true := by
  decide +kernel

/-! ### Bignum (`95_test_vectors.md` 2.3) -/

/-- B1. -/
theorem test_bnFromBytes :
    runs (.bnFromBytes .b0) (withData State.reset 0 (hex 5 0x0102030405)) .ok
      (fun t => t.readBn .b0 == 0x0102030405 && t.windowValue 0x0800 == 0x02030405) = true := by decide +kernel
/-- B6: the sum does not wrap. -/
theorem test_bnFromBytes_range :
    runs (.bnFromBytes .b0) (withRange (bnState 9 0 0 0) 0xFFFFFFFF 2) .range
      (fun t => t.readBn .b0 == 9) = true := by decide +kernel
/-- B8. -/
theorem test_bnToBytes :
    runs (.bnToBytes .b1) (withRange (bnState 0 0x0102030405 0 0) 0 8) .ok
      (fun t => t.dataRead 0 8 == hex 8 0x0102030405) = true := by decide +kernel
/-- B9: no truncation. -/
theorem test_bnToBytes_overflow :
    runs (.bnToBytes .b1) (withRange (bnState 0 0x0102030405 0 0) 0 4) .overflow
      (fun t => t.mem == []) = true := by decide +kernel
/-- B14. -/
theorem test_bnAdd :
    runs (.bnAdd .b0 .b1 .b2) (bnState 0 0xFFFFFFFF 1 0) .ok
      (fun t => t.readBn .b0 == 0x100000000) = true := by decide +kernel
/-- B15. -/
theorem test_bnAdd_overflow :
    runs (.bnAdd .b0 .b1 .b2) (bnState 77 (2 ^ 4096 - 1) 1 0) .overflow
      (fun t => t.readBn .b0 == 77) = true := by decide +kernel
/-- B18. -/
theorem test_bnSub :
    runs (.bnSub .b0 .b1 .b2) (bnState 0 0x100000000 1 0) .ok
      (fun t => t.readBn .b0 == 0xFFFFFFFF) = true := by decide +kernel
/-- B19. -/
theorem test_bnSub_underflow :
    runs (.bnSub .b0 .b1 .b2) (bnState 5 1 2 0) .underflow (fun t => t.readBn .b0 == 5) = true := by
  decide +kernel
/-- B22. -/
theorem test_bnMul :
    runs (.bnMul .b0 .b1 .b2) (bnState 0 (2 ^ 2047) (2 ^ 2048) 0) .ok
      (fun t => t.readBn .b0 == 2 ^ 4095) = true := by decide +kernel
/-- B23. -/
theorem test_bnMul_overflow :
    runs (.bnMul .b0 .b1 .b2) (bnState 3 (2 ^ 2048) (2 ^ 2048) 0) .overflow
      (fun t => t.readBn .b0 == 3) = true := by decide +kernel
/-- B25. -/
theorem test_bnShl :
    runs (.bnShl .b0 .b1) { bnState 0 1 0 0 with bnShamt := 4095 } .ok
      (fun t => t.readBn .b0 == 2 ^ 4095) = true := by decide +kernel
/-- B26. -/
theorem test_bnShl_overflow :
    runs (.bnShl .b0 .b1) { bnState 0 1 0 0 with bnShamt := 4096 } .overflow
      (fun t => t.readBn .b0 == 0) = true := by decide +kernel
/-- B29. -/
theorem test_bnShr :
    runs (.bnShr .b0 .b1) { bnState 0 0x1FF 0 0 with bnShamt := 4 } .ok
      (fun t => t.readBn .b0 == 0x1F) = true := by decide +kernel
/-- B33: STATUS = 8. -/
theorem test_bnCmp :
    runs (.bnCmp .b0 .b1) (bnState 7 5 0 0) .ok (fun t => t.windowValue 0x0008 == 8) = true := by
  decide +kernel
/-- B39. -/
theorem test_bnBitLen :
    runs (.bnBitLen .b1) (bnState 0 0x100 0 0) .ok (fun t => t.result == 9) = true := by decide +kernel
/-- B41. -/
theorem test_bnBitTest :
    runs (.bnBitTest .b1) { bnState 0 0x100 0 0 with bnShamt := 8 } .ok (fun t => t.result == 1) = true := by
  decide +kernel
/-- B46. -/
theorem test_bnMod :
    runs (.bnMod .b0 .b1 .b3) (bnState 1 100 0 7) .ok (fun t => t.readBn .b0 == 2) = true := by
  decide +kernel
/-- B52. -/
theorem test_bnModMul :
    runs (.bnModMul .b0 .b1 .b2 .b3) (bnState 1 123456789 987654321 1000000007) .ok
      (fun t => t.readBn .b0 == 0x0F71A82B) = true := by decide +kernel
/-- B57. -/
theorem test_bnModExp :
    runs (.bnModExp .b0 .b1 .b2 .b3) (bnState 1 4 13 497) .ok (fun t => t.readBn .b0 == 445) = true := by
  decide +kernel
/-- B61: `e = 0`, `m = 1` gives 0 (`90_conflicts.md` C1). -/
theorem test_bnModExp_one :
    runs (.bnModExp .b0 .b1 .b2 .b3) (bnState 1 5 0 1) .ok (fun t => t.readBn .b0 == 0) = true := by
  decide +kernel

/-! ### RSA (`95_test_vectors.md` 2.4) -/

/-- RV1. -/
theorem test_rsaSetKey :
    runs (.rsaSetKey .b1 .b2) (bnState 0 65537 0x9C000000EE2CB00031FC55AB 0) .ok
      (fun t => t.windowValue 0x0030 == 96 && t.windowValue 0x0034 == 12 &&
        t.windowValue 0x0008 == 0x00080000) = true := by decide +kernel
/-- RV4. -/
theorem test_rsaSetKey_zero :
    runs (.rsaSetKey .b1 .b2) (bnState 0 65537 0 0) .key (fun t => !t.rsaKv) = true := by decide +kernel
/-- RV8. -/
theorem test_rsaEnc :
    runs .rsaEnc (withData (rsa96.writeWindow Win.psBuf (hex 8 0x0102030405060708)) 0 [0x42]) .ok
      (fun t => t.dataRead 0 12 == hex 12 0x430111fd63f4dceda9e21e90 && t.result == 12) = true := by
  decide +kernel
/-- RV10. -/
theorem test_rsaEnc_padZero :
    runs .rsaEnc (withData (rsa96.writeWindow Win.psBuf (hex 8 0x0102030400060708)) 0 [0x42]) .padZero
      (fun t => t.dataRead 0 1 == [0x42]) = true := by decide +kernel
/-- RV25 and X6. -/
theorem test_rsaVerify_noKey :
    runs .rsaVerify (withRange { State.reset with vok := true } 0xFFFFFFFF 1) .noKey
      (fun t => t.vok) = true := by decide +kernel
/-- R105 with `e = 1`: the signature is the expected block itself. -/
theorem test_rsaVerify :
    runs .rsaVerify (withData (rsa62.writeWindow Win.digest (hex 32 5)) 0 (signatureBlock 62 (hex 32 5))) .ok
      (fun t => t.vok) = true := by decide +kernel

/-! ### AES (`95_test_vectors.md` 2.5) -/

/-- A1. -/
theorem test_aesKeyExp :
    runs (.aesKeyExp .s0) (State.reset.writeWindow Win.aesKey key1) .ok
      (fun t => t.windowValue 0x1000 == 0x00010203 && t.windowValue 0x10A0 == 0x13111d7f &&
        t.windowValue 0x10AC == 0x4d2b30c5 && t.windowValue 0x0008 == 0x00020000) = true := by decide +kernel
/-- A5. -/
theorem test_aesEncBlk :
    runs (.aesEncBlk .s0) (withData (keyed .s0 key1) 0 block1) .ok
      (fun t => t.dataRead 0 16 == cipher1) = true := by decide +kernel
/-- A9: the slot is chosen by SLOT. -/
theorem test_aesEncBlk_noKey :
    runs (.aesEncBlk .s1) (keyed .s0 key1) .noKey (fun t => t.mem == []) = true := by decide +kernel
/-- A13. -/
theorem test_aesDecBlk :
    runs (.aesDecBlk .s1) (withData (keyed .s1 key1) 0 cipher1) .ok
      (fun t => t.dataRead 0 16 == block1) = true := by decide +kernel
/-- A15, its first block. -/
theorem test_aesCbcEnc :
    runs (.aesCbcEnc .s0)
      (withData ((keyed .s0 key1).writeWindow Win.aesIv (hex 16 0x101112131415161718191a1b1c1d1e1f)) 0 block1) .ok
      (fun t => t.dataRead 0 16 == hex 16 0x1eca870ffea114b7fd6cf363c30b96b1 &&
        t.aesIvBytes == hex 16 0x1eca870ffea114b7fd6cf363c30b96b1) = true := by decide +kernel
/-- A20: E_RANGE comes before E_ALIGN. -/
theorem test_aesCbcEnc_range :
    runs (.aesCbcEnc .s0) (withRange (keyed .s0 key1) 16376 20) .range (fun _ => true) = true := by
  decide +kernel
/-- A21, its first block. -/
theorem test_aesCbcDec :
    runs (.aesCbcDec .s0)
      (withData ((keyed .s0 key1).writeWindow Win.aesIv (hex 16 0x101112131415161718191a1b1c1d1e1f)) 0
        (hex 16 0x1eca870ffea114b7fd6cf363c30b96b1)) .ok
      (fun t => t.dataRead 0 16 == block1 &&
        t.aesIvBytes == hex 16 0x1eca870ffea114b7fd6cf363c30b96b1) = true := by decide +kernel
/-- A22. -/
theorem test_aesCbcDec_align :
    runs (.aesCbcDec .s0) (withRange (keyed .s0 key1) 0 17) .align (fun _ => true) = true := by decide +kernel

/-! ### GCM (`95_test_vectors.md` 2.6) -/

/-- GV3. -/
theorem test_gcmEnc :
    runs (.gcmEnc .s0)
      { withData (((keyed .s0 key1).writeWindow Win.gcmIv0 (hex 12 0x000102030405060708090a0b)).writeWindow
          Win.aad (hex 13 0x00000000000000001703030004)) 0 (hex 4 0x70696e67) with aadLen := 13 } .ok
      (fun t => t.dataRead 0 4 == hex 4 0xe305c9a9 &&
        t.tagBytes == hex 16 0x9eb19526994a0625df2a4e068821376c && t.slots.s0.nu) = true := by decide +kernel
/-- GV11: E_NONCE comes before E_RANGE. -/
theorem test_gcmEnc_nonce :
    runs (.gcmEnc .s0) { (keyed .s0 key1).setNu .s0 true with aadLen := 65 } .nonce
      (fun t => t.slots.s0.nu) = true := by decide +kernel
/-- GV18: an empty message authenticates. -/
theorem test_gcmDec :
    runs (.gcmDec .s0)
      ((keyed .s0 (zeroBytes 16)).writeWindow Win.tag (hex 16 0x58e2fccefa7e3061367f1d57a4e7455a)) .ok
      (fun t => !t.slots.s0.nu) = true := by decide +kernel
/-- GV13's error, on GV18's message: one tag bit changed. -/
theorem test_gcmDec_tag :
    runs (.gcmDec .s0)
      ((keyed .s0 (zeroBytes 16)).writeWindow Win.tag (hex 16 0x58e2fccefa7e3061367f1d57a4e7455b)) .tag
      (fun _ => true) = true := by decide +kernel

/-! ### SHA-256 and HMAC (`95_test_vectors.md` 2.7) -/

/-- H1. -/
theorem test_shaInit :
    runs .shaInit (State.reset.writeWindow Win.shaBuf [0xFF]) .ok
      (fun t => t.windowValue 0x00C0 == 0x6a09e667 && t.windowValue 0x00DC == 0x5be0cd19 &&
        t.windowValue 0x0100 == 0 && t.windowValue 0x0008 == 0x00010000) = true := by decide +kernel
/-- R126: `H0[j]` and `K[t]` are the first 32 bits of the fractional parts of the square and cube roots of the
primes, found here by squaring and cubing (the whole part is below 5 and 7). -/
theorem test_sha256_constants :
    ((primes64.zip [sha256Init.h0, sha256Init.h1, sha256Init.h2, sha256Init.h3, sha256Init.h4, sha256Init.h5,
        sha256Init.h6, sha256Init.h7]).all fun p => (List.range 5).any fun w =>
          let x := w * 2 ^ 32 + p.2.toNat
          decide (x ^ 2 ≤ p.1 * 2 ^ 64) && decide (p.1 * 2 ^ 64 < (x + 1) ^ 2)) = true ∧
      ((primes64.zip sha256K).all fun p => (List.range 7).any fun w =>
          let x := w * 2 ^ 32 + p.2.toNat
          decide (x ^ 3 ≤ p.1 * 2 ^ 96) && decide (p.1 * 2 ^ 96 < (x + 1) ^ 3)) = true := by decide +kernel
/-- H2. -/
theorem test_shaUpdate :
    runs .shaUpdate (withData { State.reset with shaH := sha256Init, shaValid := true } 0 [0x61]) .ok
      (fun t => t.windowValue 0x00C0 == 0x6a09e667 && t.windowValue 0x00E0 == 8 &&
        t.windowValue 0x0100 == 0x61) = true := by decide +kernel
/-- H15: the counter wraps and one compression runs. -/
theorem test_shaUpdate_wrap :
    runs .shaUpdate
      (withData { State.reset with shaH := sha256Init, shaValid := true, shaCnt := 0xFFFFFFFFFFFFFFF8 } 0 [0x00])
      .ok (fun t => t.shaCnt == 0 && t.windowValue 0x00C0 == 0xda5698be) = true := by decide +kernel
/-- The empty message (`44_sha.md` R131). -/
theorem test_shaFinal :
    runs .shaFinal { State.reset with shaH := sha256Init, shaValid := true } .ok
      (fun t => t.digestBytes ==
        hex 32 0xe3b0c44298fc1c149afbf4c8996fb92427ae41e4649b934ca495991b7852b855 &&
        t.windowValue 0x00C0 == 0xe3b0c442 && !t.shaValid) = true := by decide +kernel
/-- H12. -/
theorem test_shaFinal_seq :
    runs .shaFinal State.reset .seq (fun t => t.mem == []) = true := by decide +kernel
/-- S3, H16. -/
theorem test_shaOneShot :
    runs .shaOneShot (withData State.reset 0 (hex 3 0x616263)) .ok
      (fun t => t.digestBytes ==
        hex 32 0xba7816bf8f01cfea414140de5dae2223b00361a396177a9cb410ff61f20015ad) = true := by decide +kernel
/-- S4, H20: RFC 4231 test case 1. -/
theorem test_hmac :
    runs .hmac
      { withData (State.reset.writeWindow Win.hkey (List.replicate 20 0x0b)) 0 (hex 8 0x4869205468657265) with
        hkeyLen := 20 } .ok
      (fun t => t.digestBytes ==
        hex 32 0xb0344c61d8db38535ca8afceaf0bf12b881dc200c9833da726e9376c2e32cff7) = true := by decide +kernel
/-- H28. -/
theorem test_hmac_range :
    runs .hmac { State.reset with hkeyLen := 129 } .range (fun t => t.mem == []) = true := by decide +kernel

/-! ### The host port and the step (`95_test_vectors.md` 2.1, 2.2, 2.8) -/

/-- E3: an illegal word completes with E_ILLEGAL and CMD keeps it. -/
theorem test_step_illegal :
    ran (step (State.reset.withFetchWord 32 0x00020000))
      (fun t => t.err == .illegal && t.cmd == 0x00020000 && !t.busy && t.intDone) = true := by decide +kernel
/-- A word placed by withFetchWord runs as the first step after reset. -/
theorem test_step_runs_word :
    ran (step (State.reset.withFetchWord 32 0x00000040)) (fun t => t.shaValid && t.err == .ok) = true := by
  decide +kernel
/-- M5, M2: byte lanes. -/
theorem test_byte_lanes :
    ((State.reset.hostWrite 0x4000 0x04030201).dataRead 0 4 == [1, 2, 3, 4]) = true := by decide +kernel
/-- M4. -/
theorem test_bn_word : (State.reset.hostWrite 0x0804 0xDEADBEEF).readBn .b0 = 0xDEADBEEF00000000 := by
  decide +kernel
/-- M7: SHA_CNT bits 2:0 are hardwired. -/
theorem test_sha_cnt :
    ((State.reset.hostWrite 0x00E0 0xFFFFFFFF).hostWrite 0x00E4 0x12345678).shaCnt = 0x12345678FFFFFFF8 := by
  decide +kernel
/-- M9: while busy a write is dropped and sets OVR. -/
theorem test_busy_write :
    ((State.reset.hostWrite 0x0004 0x2412).hostWrite 0x0A00 100) =
      { State.reset with cmd := 0x2412, busy := true, intOvr := true } := by decide +kernel
/-- X4, X5: soft reset also while busy; bit 0 = 0 does nothing. -/
theorem test_soft_reset :
    (({ State.reset with busy := true, doneEn := true }).hostWrite 0x002C 1 = State.reset) ∧
      State.reset.hostWrite 0x002C 0xFFFFFFFE = State.reset := by decide +kernel
/-- GV8: any write of a GCM_IV0 word clears NU0. -/
theorem test_nonce_write :
    (((keyed .s0 key1).setNu .s0 true).hostWrite 0x0068 0).slots.s0.nu = false := by decide +kernel
/-- M10, M11: write 1 to clear, and irq. -/
theorem test_interrupts :
    let s := { State.reset with intDone := true, intOvr := true, doneEn := true }
    s.irq = true ∧ (s.hostWrite 0x0010 1).irq = false ∧ ((s.hostWrite 0x0010 1).hostWrite 0x000C 3).irq = true := by
  decide +kernel
/-- A host access reaches its register whatever CRYPTO_BASE is: `c nop` while idle is accepted. -/
theorem test_host_access :
    step { State.reset with inputs := [hostC .nop] } = .next { State.reset with busy := true } := by
  have h : (HostAccess.write (wordAt 0x0004) (encode .nop)).shape.wellFormed = true :=
    AccessShape.wellFormed_of_base (by decide) (by decide)
  have e : (wordAt 0x0004).offset = 0x0004 := AccessShape.offset_of_base _ _
  show hostAccess (.write (wordAt 0x0004) (encode .nop)) State.reset = _
  rw [hostAccess_of_wellFormed _ h]
  simp only [HostAccess.apply, e]
  exact congrArg Host.Outcome.next (by decide +kernel)

/-! ### Witnesses: states and operands that meet the hypotheses of the statements, clause by clause -/

/-- The invariant as a computation, for states whose key slots are empty. -/
def invCheck (s : State) : Bool :=
  decide (Memory.wf s.mem) && s.mem.all (fun c => inByteWindow c.1) && s.shaCnt.toNat % 8 == 0 &&
    s.rsaBits.toNat == bitLength s.rsaN.toNat && s.rsaKlen.toNat == (s.rsaBits.toNat + 7) / 8 &&
    s.rsaKv == (s.rsaN != 0) && (s.rsaKv || s.rsaE == 0) &&
    s.slots.s0 == KeySlot.reset && s.slots.s1 == KeySlot.reset

theorem inv_of_invCheck {s : State} (h : invCheck s = true) : s.Inv := by
  simp only [invCheck, Bool.and_eq_true, beq_iff_eq, decide_eq_true_eq, List.all_eq_true] at h
  obtain ⟨⟨⟨⟨⟨⟨⟨⟨h1, h2⟩, h3⟩, h4⟩, h5⟩, h6⟩, h7⟩, h8⟩, h9⟩ := h
  exact ⟨h1, h2, h3, h4, h5, by rw [h6]; simp, fun h => by simpa [h] using h7, .inl h8, .inl h9⟩

theorem witness_DecodeReadsExactlyTheMarkedFields :
    decodesTo 0x00012412 (.bnAdd .b0 .b1 .b2) = true ∧ (0x0000E412 : Word).extractLsb' 17 15 = 0 ∧
      (0x0000E412 : Word) &&& readMask (.bnAdd .b0 .b1 .b2) = 0x00012412 &&& readMask (.bnAdd .b0 .b1 .b2) := by
  decide

theorem witness_IllegalWordsCompleteWithEIllegal :
    State.reset.busy = false ∧ (∃ e, decode 0x00020000 = .error e) ∧ (∃ e, decode 0x00000001 = .error e) ∧
      ∃ e, decode 0x000000FF = .error e :=
  ⟨rfl, ⟨_, rfl⟩, ⟨_, rfl⟩, ⟨_, rfl⟩⟩

theorem witness_StepRunsTheDecodedCommand :
    let s := { State.reset with busy := true, cmd := 0x2412 }
    s.busy = true ∧ decode s.cmd = .ok (.bnAdd .b0 .b1 .b2) ∧ s.inputs = [] ∧
      { s with inputs := [.engine] }.inputs = .engine :: [] :=
  ⟨rfl, rfl, rfl, rfl⟩

theorem witness_FailedCommandChangesNothing :
    ran (exec (.bnMod .b0 .b1 .b2) State.reset) (fun t => t.err != .ok) = true := by decide +kernel

/-- Each command that writes a register of the list writes it on some state. -/
theorem witness_CommandsWriteOnlyTheirRegisters :
    ran (exec (.bnCmp .b0 .b1) (bnState 7 5 0 0)) (fun t => t.cmp != .equal) = true ∧
      ran (exec (.bnBitLen .b0) (bnState 7 5 0 0)) (fun t => t.result != 0) = true ∧
      ran (exec (.rsaSetKey .b0 .b1) (bnState 7 5 0 0)) (fun t => t.rsaKv) = true ∧
      ran (exec .shaInit (State.reset.writeWindow Win.shaBuf [0xFF]))
        (fun t => t.shaValid && t.shaH != State.reset.shaH && t.shaBufBytes == zeroBytes 64) = true ∧
      ran (exec (.gcmEnc .s0) (keyed .s0 key1)) (fun t => (t.slot .s0).nu) = true ∧
      ran (exec (.aesKeyExp .s1) State.reset) (fun t => t.slot .s1 != State.reset.slot .s1) = true := by
  decide +kernel

theorem witness_ResetValuesAreTheSpecs : (0x7FFC < 0x8000 ∧ 0x7FFC % 4 = 0) ∧ 0 < 0x8000 ∧ 0 % 4 = 0 := by decide

theorem witness_ResetsReturnTheBlockToReset :
    (1 : Word).getLsbD 0 = true ∧ (0xFFFFFFFE : Word).getLsbD 0 = false ∧
      { State.reset with inputs := [.hardReset] }.inputs = .hardReset :: [] :=
  ⟨by decide, by decide, rfl⟩

theorem witness_StepKeepsInv :
    let s := { rsa96 with busy := true, cmd := 0x9020 }
    s.Inv ∧ ran (step s) (fun _ => true) = true :=
  ⟨inv_of_invCheck (by decide +kernel), by decide +kernel⟩

theorem witness_FromBytesGivesTheBigEndianValue :
    let s := withRange State.reset
    16384 < (s 16384 1).off + (s 16384 1).len ∧
      ((s 15871 513).off + (s 15871 513).len ≤ 16384 ∧ 512 < (s 15871 513).len) ∧
      (s 15872 512).off + (s 15872 512).len ≤ 16384 ∧ (s 15872 512).len ≤ 512 := by decide +kernel

theorem witness_ToBytesStoresThePaddedBytes :
    let s := withRange (bnState 0x100 0 0 0)
    16384 < (s 16384 1).off + (s 16384 1).len ∧
      ((s 15871 513).off + (s 15871 513).len ≤ 16384 ∧ 512 < (s 15871 513).len) ∧
      ((s 0 1).len ≤ 512 ∧ 256 ^ (s 0 1).len ≤ (s 0 1).readBn .b0) ∧
      (s 0 2).off + (s 0 2).len ≤ 16384 ∧ (s 0 2).readBn .b0 < 256 ^ (s 0 2).len := by decide +kernel

theorem witness_FromBytesToBytesRoundTrip :
    let s := withRange State.reset 15872 512
    s.off + s.len ≤ 16384 ∧ s.len ≤ 512 := by decide +kernel

theorem witness_AddSubMulAreExactOrFail :
    let s := bnState (2 ^ 4096 - 1) 1 0 0
    2 ^ 4096 ≤ s.readBn .b0 + s.readBn .b1 ∧ s.readBn .b0 + s.readBn .b2 < 2 ^ 4096 ∧
      s.readBn .b2 < s.readBn .b1 ∧ s.readBn .b1 ≤ s.readBn .b1 ∧
      2 ^ 4096 ≤ s.readBn .b0 * s.readBn .b0 ∧ s.readBn .b0 * s.readBn .b1 < 2 ^ 4096 := by decide +kernel

theorem witness_ShlMultipliesOrOverflows :
    let s := bnState 1 0 0 0
    2 ^ 4096 ≤ { s with bnShamt := 4096 }.readBn .b0 * 2 ^ { s with bnShamt := 4096 }.shamt ∧
      { s with bnShamt := 4095 }.readBn .b0 * 2 ^ { s with bnShamt := 4095 }.shamt < 2 ^ 4096 := by
  decide +kernel

theorem witness_ShrDivides : 4096 ≤ { State.reset with bnShamt := 4096 }.shamt := by decide +kernel

theorem witness_CmpTellsTheOrder :
    let s := bnState 1 1 2 0
    s.readBn .b0 = s.readBn .b1 ∧ s.readBn .b0 < s.readBn .b2 ∧ s.readBn .b3 < s.readBn .b0 := by
  decide +kernel

theorem witness_BitLenAndBitTestGiveResult : 4096 ≤ { State.reset with bnShamt := 4096 }.shamt := by decide +kernel

theorem witness_ReduceLoopIsMod : 1 ≤ 1 := by decide

theorem witness_ModAndModMulGiveRemainders : (bnState 1 1 0 1).readBn .b2 = 0 ∧ (bnState 1 1 0 1).readBn .b3 ≠ 0 := by
  decide +kernel

theorem witness_ModExpGivesThePowerModulo : (bnState 5 0 0 1).readBn .b2 = 0 ∧ (bnState 5 0 0 1).readBn .b3 ≠ 0 := by
  decide +kernel

theorem witness_RsaSetKeyLoadsTheStore : (bnState 5 0 0 1).readBn .b2 = 0 ∧ (bnState 5 0 0 1).readBn .b3 ≠ 0 := by
  decide +kernel

theorem witness_EncryptionBlockBelowModulus :
    rsa96.Inv ∧ rsa96.rsaKv = true ∧ (hex 1 0x42).length + 11 ≤ rsa96.rsaKlen.toNat ∧
      (hex 8 0).length = rsa96.rsaKlen.toNat - (hex 1 0x42).length - 3 :=
  ⟨inv_of_invCheck (by decide +kernel), by decide +kernel⟩

/-- The 96-bit key with PSBUF all 0x01 and this operand range. -/
def padded96 (off len : Nat) : State :=
  withRange (rsa96.writeWindow Win.psBuf (List.replicate 8 0x01)) off len

theorem witness_RsaEncGivesThePaddedPower :
    (State.reset.Inv ∧ State.reset.rsaKv = false) ∧
      (let s := padded96 16373 1
       s.Inv ∧ s.rsaKv = true ∧ 16384 < s.off + max s.len s.rsaKlen.toNat) ∧
      (let s := padded96 16372 2
       s.Inv ∧ s.off + max s.len s.rsaKlen.toNat ≤ 16384 ∧ s.rsaKlen.toNat < s.len + 11) ∧
      (let s := withRange rsa96 16372 1
       s.Inv ∧ s.off + max s.len s.rsaKlen.toNat ≤ 16384 ∧ s.len + 11 ≤ s.rsaKlen.toNat ∧
         (0 : Byte) ∈ Memory.readBytes s.mem Win.psBuf (s.rsaKlen.toNat - s.len - 3)) ∧
      (let s := padded96 16372 1
       s.Inv ∧ s.rsaKv = true ∧ s.off + max s.len s.rsaKlen.toNat ≤ 16384 ∧
         s.len + 11 ≤ s.rsaKlen.toNat ∧
         (0 : Byte) ∉ Memory.readBytes s.mem Win.psBuf (s.rsaKlen.toNat - s.len - 3)) :=
  ⟨⟨inv_of_invCheck (by decide +kernel), rfl⟩, ⟨inv_of_invCheck (by decide +kernel), by decide +kernel⟩,
    ⟨inv_of_invCheck (by decide +kernel), by decide +kernel⟩,
    ⟨inv_of_invCheck (by decide +kernel), by decide +kernel⟩,
    ⟨inv_of_invCheck (by decide +kernel), by decide +kernel⟩⟩

theorem witness_RsaVerifyTellsTheBlockMatch :
    (State.reset.Inv ∧ State.reset.rsaKv = false) ∧
      (let s := withRange rsa62 16384 1
       s.Inv ∧ s.rsaKv = true ∧ 16384 < s.off + s.len) ∧
      (let s := withRange rsa62 15871 513
       s.Inv ∧ s.off + s.len ≤ 16384 ∧ 512 < s.len) ∧
      (let s := withRange rsa62 15872 512
       s.Inv ∧ s.rsaKv = true ∧ s.off + s.len ≤ 16384 ∧ s.len ≤ 512 ∧ s.rsaKlen.toNat = 62) :=
  ⟨⟨inv_of_invCheck (by decide +kernel), rfl⟩, ⟨inv_of_invCheck (by decide +kernel), by decide +kernel⟩,
    ⟨inv_of_invCheck (by decide +kernel), by decide +kernel⟩,
    ⟨inv_of_invCheck (by decide +kernel), by decide +kernel⟩⟩

theorem witness_SboxIsAffineInverse : gfMul 0x53 0xCA = 1 := by decide +kernel

theorem witness_AesDecryptInvertsEncrypt : block1.length = 16 := by decide +kernel

/-- A slot that holds a key whose schedule is all zero words: enough where only KV matters. -/
def keyedZero : State := State.reset.setSlot .s1 { KeySlot.reset with kv := true }

theorem witness_AesEncBlkEncryptsInPlace :
    (State.reset.slot .s1).kv = false ∧
      (let s := withRange keyedZero 16369 16
       (s.slot .s1).kv = true ∧ 16384 < s.off + 16) ∧
      (let s := withRange keyedZero 16368 16
       (s.slot .s1).kv = true ∧ s.off + 16 ≤ 16384) := by decide +kernel

theorem witness_AesDecBlkDecryptsInPlace :
    (State.reset.slot .s0).kv = false ∧
      (let s := withRange (keyed .s0 key1) 16369 0
       (s.slot .s0).kv = true ∧ 16384 < s.off + 16) ∧
      (let s := withRange (keyed .s0 key1) 16368 0
       (s.slot .s0).kv = true ∧ s.off + 16 ≤ 16384) := by decide +kernel

theorem witness_AesCbcEncChainsTheBlocks :
    (State.reset.slot .s1).kv = false ∧
      (let s := withRange keyedZero 16369 16
       (s.slot .s1).kv = true ∧ 16384 < s.off + s.len) ∧
      (let s := withRange keyedZero 16367 17
       (s.slot .s1).kv = true ∧ s.off + s.len ≤ 16384 ∧ s.len % 16 ≠ 0) ∧
      (let s := withRange keyedZero 16352 32
       (s.slot .s1).kv = true ∧ s.off + s.len ≤ 16384 ∧ s.len % 16 = 0 ∧ 1 < s.len / 16) := by
  decide +kernel

theorem witness_AesCbcDecUnchainsTheBlocks :
    (State.reset.slot .s1).kv = false ∧
      (let s := withRange keyedZero 16385 0
       (s.slot .s1).kv = true ∧ 16384 < s.off + s.len) ∧
      (let s := withRange keyedZero 16383 1
       (s.slot .s1).kv = true ∧ s.off + s.len ≤ 16384 ∧ s.len % 16 ≠ 0) ∧
      (let s := withRange keyedZero 16384 0
       (s.slot .s1).kv = true ∧ s.off + s.len ≤ 16384 ∧ s.len % 16 = 0) ∧
      (let s := withRange keyedZero 0 16384
       (s.slot .s1).kv = true ∧ s.off + s.len ≤ 16384 ∧ s.len % 16 = 0) := by decide +kernel

theorem witness_CbcDecUndoesCbcEnc :
    let s := withRange keyedZero 0 16384
    (s.slot .s1).kv = true ∧ s.off + s.len ≤ 16384 ∧ s.len % 16 = 0 := by decide +kernel

theorem witness_GcmEncEncryptsTagsAndMarksTheNonce :
    (State.reset.slot .s1).kv = false ∧
      (let s := keyedZero.setNu .s1 true
       (s.slot .s1).kv = true ∧ (s.slot .s1).nu = true) ∧
      (let s := withRange keyedZero 16384 1
       (s.slot .s1).kv = true ∧ (s.slot .s1).nu = false ∧ 16384 < s.off + s.len) ∧
      (let s := { keyedZero with aadLen := 65 }
       (s.slot .s1).kv = true ∧ (s.slot .s1).nu = false ∧ 64 < s.aadLen.toNat) ∧
      (let s := { withRange keyedZero 16383 1 with aadLen := 64 }
       (s.slot .s1).kv = true ∧ (s.slot .s1).nu = false ∧ s.off + s.len ≤ 16384 ∧ s.aadLen.toNat ≤ 64) := by
  decide +kernel

/-- The tag of the empty message under the zero key and nonce (vector GV18), in TAG. -/
def tagged : State :=
  withRange ((keyed .s0 (zeroBytes 16)).writeWindow Win.tag (hex 16 0x58e2fccefa7e3061367f1d57a4e7455a)) 16384 0

theorem witness_GcmDecReleasesOnlyOnATagMatch :
    (State.reset.slot .s1).kv = false ∧
      (let s := withRange keyedZero 16384 1
       (s.slot .s1).kv = true ∧ 16384 < s.off + s.len) ∧
      (let s := { keyedZero with aadLen := 65 }
       (s.slot .s1).kv = true ∧ 64 < s.aadLen.toNat) ∧
      ((tagged.slot .s0).kv = true ∧ tagged.off + tagged.len ≤ 16384 ∧ tagged.aadLen.toNat ≤ 64) ∧
      (let expected := gcmTag (tagged.slot .s0).rk (Memory.readBytes tagged.mem (Win.gcmIv .s0) 12)
          (Memory.readBytes tagged.mem Win.aad tagged.aadLen.toNat)
          (Memory.readBytes tagged.mem (Win.data + tagged.off) tagged.len)
       Memory.readBytes tagged.mem Win.tag 16 = expected ∧ zeroBytes 16 ≠ expected) := by decide +kernel

theorem witness_GcmRoundTripAndTamper :
    let s := { withRange (keyed .s0 (zeroBytes 16)) 16384 0 with aadLen := 0 }
    (s.slot .s0).kv = true ∧ (s.slot .s0).nu = false ∧ s.off + s.len ≤ 16384 ∧ s.aadLen.toNat ≤ 64 ∧
      (zeroBytes 16).length = 16 ∧
      ran (exec (.gcmEnc .s0) s) (fun t => zeroBytes 16 != Memory.readBytes t.mem Win.tag 16) = true := by
  decide +kernel

theorem witness_NonceUsedFlagDiscipline :
    ran (exec (.gcmEnc .s0) (keyed .s0 (zeroBytes 16))) (fun t => t.err == .ok) = true ∧
      (State.reset.busy = false ∧ Span (Win.gcmIv .s0) 12 0x0060 ∧ Span (Win.gcmIv .s0) 12 0x0068 ∧
        Span (Win.gcmIv .s1) 12 0x0078) ∧
      (∃ t, exec (.aesKeyExp .s1) State.reset = .next t) ∧ ∃ t, exec (.gcmDec .s1) State.reset = .next t := by
  refine ⟨by decide +kernel, ⟨rfl, ?_, ?_, ?_⟩, ⟨_, rfl⟩, ⟨_, rfl⟩⟩ <;>
    simp [Span, Win.gcmIv, Win.gcmIv0, Win.gcmIv1]

theorem witness_ShaUpdateAbsorbsTheOperand :
    let s := { State.reset with shaValid := true }
    State.reset.shaValid = false ∧
      (s.shaValid = true ∧ 16384 < (withRange s 0 16385).off + (withRange s 0 16385).len) ∧
      (withRange s 0 16384).shaValid = true ∧ (withRange s 0 16384).off + (withRange s 0 16384).len ≤ 16384 := by
  decide +kernel

theorem witness_ShaUpdateSplitsAnywhere : { State.reset with shaValid := true }.shaValid = true ∧ 16380 + 3 + 1 ≤ 16384 := by
  decide

theorem witness_StaleBytesDoNotMatter :
    let c : ShaContext := { h := sha256Init, cnt := 8, buf := zeroBytes 64 }
    let d : ShaContext := { h := sha256Init, cnt := 8, buf := (0 : Byte) :: List.replicate 63 0xFF }
    c.h = d.h ∧ c.cnt = d.cnt ∧ c.buf.length = 64 ∧ d.buf.length = 64 ∧ c.buf ≠ d.buf ∧
      ∀ j, j < shaPending c.cnt → c.buf.getD j 0 = d.buf.getD j 0 := by decide +kernel

theorem witness_PaddingEndsOnABlock : shaPending (55 * 8) ≤ 55 ∧ 56 ≤ shaPending (56 * 8) := by decide +kernel

theorem witness_ShaFinalGivesTheDigestOnce :
    State.reset.shaValid = false ∧ { State.reset with shaValid := true }.shaValid = true := by decide

theorem witness_ShaOneShotGivesTheDigest :
    let s := withRange State.reset
    16384 < (s 1 16384).off + (s 1 16384).len ∧ (s 0 16384).off + (s 0 16384).len ≤ 16384 := by decide +kernel

theorem witness_StreamingEqualsOneShot :
    (withRange State.reset 0 16384).off + (withRange State.reset 0 16384).len ≤ 16384 := by decide +kernel

theorem witness_HmacGivesTheConstruction :
    let s := fun (off len kl : Nat) => { withRange State.reset off len with hkeyLen := BitVec.ofNat 32 kl }
    16384 < (s 1 16384 0).off + (s 1 16384 0).len ∧ 128 < (s 0 0 129).hkeyLen.toNat ∧
      ((s 0 16384 64).off + (s 0 16384 64).len ≤ 16384 ∧ (s 0 16384 64).hkeyLen.toNat ≤ 128) ∧
      (s 0 16384 65).off + (s 0 16384 65).len ≤ 16384 ∧ 64 < (s 0 16384 65).hkeyLen.toNat ∧
      (s 0 0 128).hkeyLen.toNat ≤ 128 := by decide +kernel

theorem witness_HostWritesWhileIdleAndBusy :
    let s := { State.reset with busy := true }
    State.reset.busy = false ∧ (s.busy = true ∧ 0x0000 < 0x8000 ∧ 0x7FFC < 0x8000 ∧ 0x7FFC % 4 = 0) ∧
      (1 : Word).getLsbD 0 = true ∧ (0 : Word).getLsbD 0 = false := by decide

theorem witness_HostReadsChangeNothing :
    let s := { State.reset with busy := true }
    (State.reset.busy = false ∧ 0x7FFC < 0x8000 ∧ 0x7FFC % 4 = 0) ∧
      (s.busy = true ∧ 0x002C ∈ [0x0000, 0x0004, 0x0008, 0x000C, 0x0010, 0x002C]) ∧
      0x0014 ∉ [0x0000, 0x0004, 0x0008, 0x000C, 0x0010, 0x002C] ∧ 0x0014 < 0x8000 ∧ 0x0014 % 4 = 0 := by decide

theorem witness_ByteWindowLanesAreLittleEndian :
    State.reset.busy = false ∧ (0x0040 % 4 = 0 ∧ inByteWindow 0x0040 = true) ∧
      (0x0068 % 4 = 0 ∧ inByteWindow 0x0068 = true) ∧ 0x7FFC % 4 = 0 ∧ inByteWindow 0x7FFC = true := by decide

theorem witness_BignumWordsAreLittleEndian : State.reset.busy = false ∧ 0 < 128 ∧ 127 < 128 := by decide

theorem witness_InterruptsFollowEnablesAndStatus :
    let s := { State.reset with doneEn := true, busy := true }
    (∃ t, exec .nop s = .next t) ∧ s.doneEn = true ∧ s.busy = true ∧ (∃ t, engineTurn s = .next t) ∧
      ran (engineTurn { s with cmd := 0x00020000 }) (fun t => t.err == .illegal) = true :=
  ⟨⟨_, rfl⟩, rfl, rfl, ⟨_, rfl⟩, by decide +kernel⟩

theorem witness_RegistersReadBackWhatWasWritten :
    State.reset.busy = false ∧ 0 < 44 ∧ 43 < 44 ∧ (0x0038 ≤ 0x0038 ∧ 0x003C < 0x0040 ∧ 0x003C % 4 = 0) ∧ 0x006C % 4 = 0 ∧
      (0x11B0 % 4 = 0 ∧ 0x11B0 ≤ 0x3FFC ∧ 0x3FFC < 0x4000 ∧ 0x3FFC % 4 = 0) ∧
      0x0034 ∈ [0x0000, 0x0008, 0x0014, 0x0030, 0x0034] ∧ 0x1000 ≤ 0x10AC ∧ 0x10AC < 0x10B0 ∧
      0x1100 ≤ 0x11AC ∧ 0x11AC < 0x11B0 ∧ 0x11AC % 4 = 0 := by decide

/-- A host access of this width at this offset. -/
def accessAt (w : AccessWidth) (off : Nat) : HostAccess := .read { width := w, addr := Config.cryptoBase + off }

theorem witness_OnlyUndefinedAccessesAreRefused :
    { State.reset with inputs := [hostC .nop] }.InputsDefined ∧
      (accessAt .word 0x8000).shape.inWindow = false ∧
      ((accessAt .byte 0x8001).shape.inWindow = false ∧ (accessAt .byte 0x8001).shape.width ≠ .word ∧
        (accessAt .byte 0x8001).shape.offset % 4 ≠ 0) ∧
      ((accessAt .double 0x7FF8).shape.inWindow = true ∧ (accessAt .double 0x7FF8).shape.width ≠ .word) ∧
      ((accessAt .word 0x7FFD).shape.inWindow = true ∧ (accessAt .word 0x7FFD).shape.offset % 4 ≠ 0) ∧
      (accessAt .word 0x7FFC).shape.inWindow = true ∧ (accessAt .word 0x7FFC).shape.width = .word ∧
      (accessAt .word 0x7FFC).shape.offset % 4 = 0 := by
  refine ⟨?_, ?_⟩
  · intro a ha
    obtain rfl : a = .write (wordAt 0x0004) (encode .nop) := by simpa [hostC, hostW] using ha
    exact AccessShape.wellFormed_of_base (by decide) (by decide)
  · simp [accessAt, HostAccess.shape, AccessShape.inWindow, AccessShape.offset_of_base, Config.windowBytes]

theorem witness_CommandInFlightEnds :
    let s := { State.reset with busy := true, cmd := 0x40, inputs := [hostC .nop, .engine] }
    s.busy = true ∧ s.InputsDefined := by
  refine ⟨rfl, fun a ha => ?_⟩
  obtain rfl : a = .write (wordAt 0x0004) (encode .nop) := by simpa [hostC, hostW] using ha
  exact AccessShape.wellFormed_of_base (by decide) (by decide)

theorem witness_HostCannotDisturbACommand :
    let s := { State.reset with busy := true }
    s.busy = true ∧ (0x002C < 0x8000 ∧ 0x002C % 4 = 0 ∧ (2 : Word).getLsbD 0 = false) ∧
      (0x7FFC < 0x8000 ∧ 0x7FFC % 4 = 0 ∧ 0x7FFC ≠ 0x002C) ∧ ∃ t, runCommand s = .next t :=
  ⟨rfl, by decide, by decide, ⟨_, rfl⟩⟩

end Sys2Proof.Tests
end

section
/-! PROOFS. Byte strings as numbers: BN_FROMBYTES and BN_TOBYTES undo each other (`00_scope.md` R14,
`40_bignum.md` R86, R87). -/

namespace Sys2Proof.Machine

open Sys2Proof

/-! ### `from_bytes` and `to_bytes`, by their last byte -/

@[simp] theorem fromBytes_nil : fromBytes [] = 0 := rfl

/-- The last byte is the least significant one. -/
theorem fromBytes_concat (s : List Byte) (b : Byte) : fromBytes (s ++ [b]) = fromBytes s * 256 + b.toNat := by
  simp only [fromBytes, List.foldl_append, List.foldl_cons, List.foldl_nil]

@[simp] theorem toBytes_zero (v : Nat) : toBytes v 0 = [] := rfl

theorem toBytes_succ (v n : Nat) : toBytes v (n + 1) = toBytes (v / 256) n ++ [BitVec.ofNat 8 v] := by
  have byte_of_quotient (j : Nat) (hj : j < n) :
      v >>> (8 * (n + 1 - 1 - j)) = (v / 256) >>> (8 * (n - 1 - j)) := by
    rw [show 8 * (n + 1 - 1 - j) = 8 + 8 * (n - 1 - j) by omega, Nat.shiftRight_add, Nat.shiftRight_eq_div_pow v 8]
  simp only [toBytes, List.range_succ, List.map_append, List.map_cons, List.map_nil]
  congr 1
  · refine List.map_congr_left fun j hj => ?_
    rw [byte_of_quotient j (List.mem_range.mp hj)]
  · simp

/-- `L` bytes give a number below `256^L`. -/
theorem fromBytes_lt (s : List Byte) : fromBytes s < 256 ^ s.length := by
  induction s using List.reverseRecOn with
  | nil => decide
  | append_singleton s b ih =>
      have hb : b.toNat < 256 := b.isLt
      rw [fromBytes_concat, List.length_append, List.length_singleton, pow_succ]
      omega

/-- `to_bytes(from_bytes(s), |s|) = s`. -/
theorem toBytes_fromBytes (s : List Byte) : toBytes (fromBytes s) s.length = s := by
  induction s using List.reverseRecOn with
  | nil => rfl
  | append_singleton s b ih =>
      have hb : b.toNat < 256 := b.isLt
      have quotient : (fromBytes s * 256 + b.toNat) / 256 = fromBytes s := by omega
      have last : BitVec.ofNat 8 (fromBytes s * 256 + b.toNat) = b := by
        apply BitVec.eq_of_toNat_eq
        rw [BitVec.toNat_ofNat]
        omega
      rw [fromBytes_concat, List.length_append, List.length_singleton, toBytes_succ, quotient, last, ih]

/-- A byte string that fits into a bignum register has its value below the register's bound. -/
theorem fromBytes_lt_bignum {s : List Byte} (h : s.length ≤ Config.bnBytes) : fromBytes s < 2 ^ Config.bnBits :=
  calc fromBytes s < 256 ^ s.length := fromBytes_lt s
    _ ≤ 256 ^ Config.bnBytes := Nat.pow_le_pow_right (by decide) h
    _ = 2 ^ Config.bnBits := by rw [show 256 = 2 ^ 8 from rfl, ← pow_mul, show 8 * Config.bnBytes = Config.bnBits from rfl]

/-! ### Storing back what was read -/

/-- Storing a byte string where it was read leaves every byte as it was. -/
theorem Memory.read_writeBytes_readBytes (m : Memory) (a n x : Nat) :
    Memory.read (Memory.writeBytes m a (Memory.readBytes m a n)) x = Memory.read m x := by
  by_cases inside : a ≤ x ∧ x < a + n
  · obtain ⟨j, rfl⟩ := Nat.exists_eq_add_of_le inside.1
    have hj : j < n := by omega
    rw [Memory.read_writeBytes_inside _ _ (by simpa using hj), Memory.readBytes_getD _ _ hj]
  · exact Memory.read_writeBytes_outside _ _ (by rw [Memory.readBytes_length]; omega)

@[simp] theorem State.operand_length (s : State) (n : Nat) : (s.operand n).length = n :=
  Memory.readBytes_length _ _ _

/-! ### The two commands where every check passes -/

theorem inRange_eq_true {off n : Nat} : inRange off n = true ↔ off + n ≤ 16384 := decide_eq_true_iff

theorem exec_bnFromBytes_of_fits (rd : BnReg) {s : State} (hr : s.off + s.len ≤ 16384) (hc : s.len ≤ 512) :
    exec (.bnFromBytes rd) s = .next ((s.writeBn rd (fromBytes (s.operand s.len))).finish .ok) := by
  simp only [exec, execBnFromBytes, State.complete, inRange_eq_true.mpr hr, Bool.not_true, Bool.false_eq_true,
    if_false, if_neg hc.not_gt]

theorem exec_bnToBytes_of_fits (rs1 : BnReg) {s : State} (hr : s.off + s.len ≤ 16384) (hc : s.len ≤ 512)
    (hv : s.readBn rs1 < 256 ^ s.len) :
    exec (.bnToBytes rs1) s = .next ((s.dataWrite s.off (toBytes (s.readBn rs1) s.len)).finish .ok) := by
  simp only [exec, execBnToBytes, State.complete, inRange_eq_true.mpr hr, Bool.not_true, Bool.false_eq_true,
    if_false, if_neg hc.not_gt, if_neg hv.not_ge]

/-- Settles O16: the register holds the operand's value, whose bytes are the operand again. -/
theorem fromBytesToBytesRoundTrip : Obligations.FromBytesToBytesRoundTrip := by
  intro r s hr hc
  set t := (s.writeBn r (fromBytes (s.operand s.len))).finish .ok with ht
  have value : t.readBn r = fromBytes (s.operand s.len) := by
    rw [ht, State.readBn_finish, State.readBn_writeBn_same _ _ (fromBytes_lt_bignum (by simpa using hc))]
  have fits : t.readBn r < 256 ^ t.len := by
    have := fromBytes_lt (s.operand s.len)
    rwa [← value, State.operand_length] at this
  have stored : toBytes (t.readBn r) s.len = s.operand s.len := by
    have := toBytes_fromBytes (s.operand s.len)
    rwa [← value, State.operand_length] at this
  refine ⟨t, _, exec_bnFromBytes_of_fits r hr hc, exec_bnToBytes_of_fits r hr hc fits, rfl, fun a => ?_⟩
  calc Memory.read (Memory.writeBytes s.mem (Win.data + s.off) (toBytes (t.readBn r) s.len)) a
      = Memory.read (Memory.writeBytes s.mem (Win.data + s.off) (s.operand s.len)) a := by rw [stored]
    _ = Memory.read s.mem a := Memory.read_writeBytes_readBytes s.mem _ s.len a

end Sys2Proof.Machine
end

section
/-! PROOFS. What the commands can write, said once (`60_exceptions.md` R141, R142): a command fails and changes
nothing, or makes writes of the nine kinds of `Writes`. The frames and the invariant follow from that. -/

namespace Sys2Proof.Machine

open Sys2Proof

/-! ### Places in the byte windows -/

/-- The `n` bytes from offset `base` on lie in one byte window (`10_state.md` R21). -/
def InOneWindow (base n : Nat) : Prop := ∃ w ∈ byteWindows, w.1 ≤ base ∧ base + n ≤ w.1 + w.2

/-- The `n` bytes from offset `base` on do not meet SHA_BUF (`10_state.md` R43). -/
def ApartFromShaBuf (base n : Nat) : Prop :=
  base + n ≤ Win.shaBuf ∨ Win.shaBuf + Config.shaBlockBytes ≤ base

theorem inByteWindow_of_inOneWindow {base n a : Nat} (h : InOneWindow base n) (lo : base ≤ a)
    (hi : a < base + n) : inByteWindow a = true := by
  obtain ⟨w, hw, hlo, hhi⟩ := h
  refine List.any_eq_true.mpr ⟨w, hw, ?_⟩
  rw [Bool.and_eq_true, decide_eq_true_eq, decide_eq_true_eq]
  omega

theorem inOneWindow_data {off n : Nat} (h : inRange off n = true) : InOneWindow (Win.data + off) n := by
  have := inRange_eq_true.mp h
  refine ⟨(Win.data, 16384), by decide, ?_, ?_⟩ <;> dsimp only <;> omega

theorem apartFromShaBuf_data (off n : Nat) : ApartFromShaBuf (Win.data + off) n :=
  .inr (Nat.le_add_right_of_le (by decide))

/-! ### The writes of a command -/

/-- `u` comes from `s` by writes that the command `i` may make. Each constructor is one write, with what
is known of the value written and, where it matters, of the commands that make it. -/
inductive Writes (i : Instr) (s : State) : State → Prop
  | refl : Writes i s s
  /-- A bignum result (`40_bignum.md`). -/
  | bn {u : State} (rd : BnReg) (v : Nat) : Writes i s u → Writes i s (u.writeBn rd v)
  /-- A byte string inside one byte window other than SHA_BUF. -/
  | window {u : State} {base : Nat} {bs : List Byte} (hw : InOneWindow base bs.length)
      (hb : ApartFromShaBuf base bs.length) : Writes i s u → Writes i s (u.writeWindow base bs)
  | result {u : State} (v : Nat) (hi : i = .rsaEnc ∨ ∃ a, i = .bnBitLen a ∨ i = .bnBitTest a) :
      Writes i s u → Writes i s (u.setResult v)
  | vok {u : State} (b : Bool) (hi : i = .rsaVerify) : Writes i s u → Writes i s (u.setVok b)
  | cmp {u : State} (c : CmpFlag) (hi : ∃ a b, i = .bnCmp a b) : Writes i s u → Writes i s (u.setCmp c)
  /-- The modulus is not 0 (`41_rsa.md` R100). -/
  | rsaKey {u : State} {n : Bignum} (e : Bignum) (hn : n ≠ 0) (hi : ∃ a b, i = .rsaSetKey a b) :
      Writes i s u → Writes i s (u.setRsaKey n e)
  /-- The slot takes the schedule of 16 key bytes (`42_aes.md` R112). -/
  | keySlot {u : State} {k : Slot} {key : List Byte} (hk : key.length = 16) (hi : i = .aesKeyExp k) :
      Writes i s u → Writes i s (u.setSlot k { rk := keySchedule key, kv := true, nu := false })
  /-- Only a slot that holds a key has its nonce used (`43_gcm.md` R124). -/
  | nonceUsed {u : State} {k : Slot} (hk : (u.slot k).kv = true) (hi : i = .gcmEnc k) :
      Writes i s u → Writes i s (u.setSlot k { u.slot k with nu := true })
  /-- A context whose counter is whole bytes where the one before was (`44_sha.md` R129). -/
  | shaContext {u : State} {c : ShaContext} {b : Bool} (hl : c.buf.length = Config.shaBlockBytes)
      (hc : s.shaCnt.toNat % 8 = 0 → c.cnt.toNat % 8 = 0)
      (hv : b = u.shaValid ∨ i = .shaInit ∨ i = .shaFinal)
      (hi : i = .shaInit ∨ i = .shaUpdate ∨ i = .shaFinal) : Writes i s u → Writes i s (u.setShaContext c b)

theorem Writes.dataWrite {i : Instr} {s u : State} {off : Nat} {bs : List Byte}
    (hr : inRange off bs.length = true) (h : Writes i s u) : Writes i s (u.dataWrite off bs) :=
  .window (inOneWindow_data hr) (apartFromShaBuf_data _ _) h

/-- A byte string that fills a byte window other than SHA_BUF. -/
theorem Writes.fill {i : Instr} {s u : State} {base n : Nat} {bs : List Byte} (hw : (base, n) ∈ byteWindows)
    (hb : ApartFromShaBuf base n) (hl : bs.length = n) (h : Writes i s u) : Writes i s (u.writeWindow base bs) := by
  subst hl
  exact .window ⟨_, hw, Nat.le_refl _, Nat.le_refl _⟩ hb h

theorem Writes.digest {i : Instr} {s u : State} {d : List Byte} (hd : d.length = 32) (h : Writes i s u) :
    Writes i s (u.setDigest d) :=
  .fill (by decide) (.inl (by decide)) hd h

/-! ### How a command ends -/

/-- The outcome `o` is a failure, or the completion of writes the command may make. -/
def Ends (i : Instr) (s : State) (o : Result) : Prop :=
  (∃ e, e ≠ .ok ∧ o = .next (s.finish e)) ∨ ∃ u, Writes i s u ∧ o = .next (u.finish .ok)

theorem Ends.fail {i : Instr} {s : State} {e : ErrCode} (he : e ≠ .ok) : Ends i s (s.fail e) :=
  .inl ⟨e, he, rfl⟩

theorem Ends.complete {i : Instr} {s u : State} (h : Writes i s u) : Ends i s u.complete := .inr ⟨u, h, rfl⟩

theorem Ends.ite {i : Instr} {s : State} {c : Prop} [Decidable c] {o p : Result} (ho : c → Ends i s o)
    (hp : ¬ c → Ends i s p) : Ends i s (if c then o else p) := by
  split
  · exact ho ‹_›
  · exact hp ‹_›

/-- A check that ends the command with an error, and the rest of the command where it passes. -/
theorem Ends.check {i : Instr} {s : State} {c : Prop} [Decidable c] {e : ErrCode} {o : Result}
    (ho : ¬ c → Ends i s o) (he : e ≠ .ok := by decide) : Ends i s (if c then s.fail e else o) :=
  .ite (fun _ => .fail he) ho

/-- A range check. -/
theorem Ends.checkRange {i : Instr} {s : State} {off n : Nat} {o : Result}
    (ho : inRange off n = true → Ends i s o) : Ends i s (if !inRange off n then s.fail .range else o) :=
  .check fun h => ho (by simpa using h)

theorem blockCheck_ne_ok {s : State} {k : Slot} {e : ErrCode} (h : s.blockCheck k = some e) : e ≠ .ok := by
  unfold State.blockCheck at h
  split_ifs at h <;> cases h <;> decide

theorem cbcCheck_ne_ok {s : State} {k : Slot} {e : ErrCode} (h : s.cbcCheck k = some e) : e ≠ .ok := by
  unfold State.cbcCheck at h
  split_ifs at h <;> cases h <;> decide

/-! ### The commands that write more than one plain value -/

/-- One block stored in place (`42_aes.md` R113, R114). -/
theorem Writes.block {i : Instr} {k : Slot} {s : State} {out : List Byte} (hc : s.blockCheck k = none)
    (hl : out.length = 16) : Writes i s (s.dataWrite s.off out) := by
  obtain ⟨-, hr⟩ := blockCheck_eq_none.mp hc
  exact .dataWrite (by rwa [hl, inRange_eq_true]) .refl

/-- Whole blocks stored in place, and AES_IV (`42_aes.md` R115, R116). -/
theorem Writes.cbc {i : Instr} {k : Slot} {s : State} {out iv : List Byte} (hc : s.cbcCheck k = none)
    (hl : out.length = 16 * (s.len / 16)) (hiv : iv.length = 16) :
    Writes i s ((s.dataWrite s.off out).writeWindow Win.aesIv iv) := by
  obtain ⟨-, hr, -⟩ := cbcCheck_eq_none.mp hc
  refine .fill (by decide) (.inl (by decide)) hiv (.dataWrite (inRange_eq_true.mpr ?_) .refl)
  rw [hl]
  omega

theorem execAesEncBlk_ends (k : Slot) (s : State) : Ends (.aesEncBlk k) s (execAesEncBlk k s) := by
  unfold execAesEncBlk
  split
  · next hc => exact .fail (blockCheck_ne_ok hc)
  · next hc => exact .complete (.block hc (aesEncrypt_length _ _))

theorem execAesDecBlk_ends (k : Slot) (s : State) : Ends (.aesDecBlk k) s (execAesDecBlk k s) := by
  unfold execAesDecBlk
  split
  · next hc => exact .fail (blockCheck_ne_ok hc)
  · next hc => exact .complete (.block hc (aesDecrypt_length _ _))

@[simp] theorem State.aesIvBytes_length (s : State) : s.aesIvBytes.length = 16 := Memory.readBytes_length _ _ _

theorem execAesCbcEnc_ends (k : Slot) (s : State) : Ends (.aesCbcEnc k) s (execAesCbcEnc k s) := by
  unfold execAesCbcEnc
  split
  · next hc => exact .fail (cbcCheck_ne_ok hc)
  · next hc =>
      exact .complete (.cbc hc (cbcEncrypt_length _ _ _ _) (cbcEncrypt_last_length _ _ _ s.aesIvBytes_length))

theorem execAesCbcDec_ends (k : Slot) (s : State) : Ends (.aesCbcDec k) s (execAesCbcDec k s) := by
  have whole : 16 * (s.len / 16) ≤ (s.operand s.len).length := by
    rw [State.operand_length]
    omega
  unfold execAesCbcDec
  split
  · next hc => exact .fail (cbcCheck_ne_ok hc)
  · next hc =>
      exact .complete (.cbc hc (cbcDecrypt_length _ _ s.aesIvBytes_length whole)
        (cbcDecrypt_last_length _ _ s.aesIvBytes_length whole))

/-- GCM_ENC (`43_gcm.md` R124). -/
theorem execGcmEnc_ends (k : Slot) (s : State) : Ends (.gcmEnc k) s (execGcmEnc k s) := by
  refine .check fun hkv => .check fun _ => .checkRange fun hr => .check fun _ => .complete ?_
  have keyed : (s.slot k).kv = true := by simpa using hkv
  refine .nonceUsed keyed rfl (.fill (by decide) (.inl (by decide)) (gcmTag_length _ _ _ _) (.dataWrite ?_ .refl))
  rwa [gcmCrypt_length, State.operand_length]

/-- GCM_DEC (`43_gcm.md` R125). -/
theorem execGcmDec_ends (k : Slot) (s : State) : Ends (.gcmDec k) s (execGcmDec k s) := by
  refine .check fun _ => .checkRange fun hr => .check fun _ => .check fun _ => .complete (.dataWrite ?_ .refl)
  rwa [gcmCrypt_length, State.operand_length]

/-- RSA_ENC (`41_rsa.md` R103). -/
theorem execRsaEnc_ends (s : State) : Ends .rsaEnc s (execRsaEnc s) := by
  refine .check fun _ => .checkRange fun hr => .check fun _ => .check fun _ =>
    .complete (.result _ (.inl rfl) (.dataWrite (inRange_eq_true.mpr ?_) .refl))
  have := inRange_eq_true.mp hr
  rw [toBytes_length]
  omega

/-- RSA_SETKEY (`41_rsa.md` R100). -/
theorem execRsaSetKey_ends (rs2 rm : BnReg) (s : State) : Ends (.rsaSetKey rs2 rm) s (execRsaSetKey rs2 rm s) :=
  .check fun hz => .complete
    (.rsaKey _ (fun h => hz ((congrArg BitVec.toNat h).trans BitVec.toNat_zero)) ⟨rs2, rm, rfl⟩ .refl)

/-! ### The streaming hash -/

@[simp] theorem State.shaBufBytes_length (s : State) : s.shaBufBytes.length = Config.shaBlockBytes :=
  Memory.readBytes_length _ _ _

/-- The counter stays a whole number of bytes, also where it wraps (`44_sha.md` R129). -/
theorem absorb_cnt_whole (c : ShaContext) (m : List Byte) :
    (absorb c m).cnt.toNat % 8 = c.cnt.toNat % 8 := by
  induction m generalizing c with
  | nil => rfl
  | cons x m ih =>
      rw [absorb_cons, ih]
      show (c.cnt + 8).toNat % 8 = c.cnt.toNat % 8
      rw [BitVec.toNat_add]
      show (c.cnt.toNat + 8) % 2 ^ 64 % 8 = c.cnt.toNat % 8
      omega

/-- SHA_INIT (`44_sha.md` R131). -/
theorem execShaInit_ends (s : State) : Ends .shaInit s (execShaInit s) :=
  .complete (.shaContext (zeroBytes_length _) (fun _ => rfl) (.inr (.inl rfl)) (.inl rfl) .refl)

/-- SHA_UPDATE (`44_sha.md` R132). -/
theorem execShaUpdate_ends (s : State) : Ends .shaUpdate s (execShaUpdate s) := by
  refine .check fun _ => .checkRange fun _ =>
    .complete (.shaContext ?_ (fun h => ?_) (.inl rfl) (.inr (.inl rfl)) .refl)
  · exact (absorb_buf_length _ _).trans s.shaBufBytes_length
  · exact (absorb_cnt_whole _ _).trans h

/-- SHA_FINAL (`44_sha.md` R133). -/
theorem execShaFinal_ends (s : State) : Ends .shaFinal s (execShaFinal s) :=
  .check fun _ => .complete (.shaContext (zeroBytes_length _) (fun _ => rfl) (.inr (.inr rfl)) (.inr (.inr rfl))
    (.digest (Hash8.bytes_length _) .refl))

/-! ### Every command -/

/-- Everything a command can do. -/
theorem exec_ends (i : Instr) (s : State) : Ends i s (exec i s) := by
  cases i with
  | nop => exact .complete .refl
  | bnFromBytes rd => exact .check fun _ => .check fun _ => .complete (.bn rd _ .refl)
  | bnToBytes rs1 =>
      exact .checkRange fun hr => .check fun _ => .check fun _ =>
        .complete (.dataWrite (by rwa [toBytes_length]) .refl)
  | bnAdd rd rs1 rs2 =>
      unfold exec execBnAdd
      exact .check fun _ => .complete (.bn rd _ .refl)
  | bnSub rd rs1 rs2 => exact .check fun _ => .complete (.bn rd _ .refl)
  | bnMul rd rs1 rs2 =>
      unfold exec execBnMul
      exact .check fun _ => .complete (.bn rd _ .refl)
  | bnShl rd rs1 =>
      exact .ite (fun _ => .complete (.bn rd _ .refl)) fun _ => .check fun _ => .complete (.bn rd _ .refl)
  | bnShr rd rs1 => exact .complete (.bn rd _ .refl)
  | bnCmp rs1 rs2 => exact .complete (.cmp _ ⟨rs1, rs2, rfl⟩ .refl)
  | bnMod rd rs1 rm => exact .check fun _ => .complete (.bn rd _ .refl)
  | bnModMul rd rs1 rs2 rm => exact .check fun _ => .complete (.bn rd _ .refl)
  | bnModExp rd rs1 rs2 rm => exact .check fun _ => .complete (.bn rd _ .refl)
  | bnBitLen rs1 => exact .complete (.result _ (.inr ⟨rs1, .inl rfl⟩) .refl)
  | bnBitTest rs1 => exact .complete (.result _ (.inr ⟨rs1, .inr rfl⟩) .refl)
  | rsaSetKey rs2 rm => exact execRsaSetKey_ends rs2 rm s
  | rsaEnc => exact execRsaEnc_ends s
  | rsaVerify => exact .check fun _ => .check fun _ => .check fun _ => .complete (.vok _ rfl .refl)
  | aesKeyExp k => exact .complete (.keySlot (Memory.readBytes_length _ _ _) rfl .refl)
  | aesEncBlk k => exact execAesEncBlk_ends k s
  | aesDecBlk k => exact execAesDecBlk_ends k s
  | aesCbcEnc k => exact execAesCbcEnc_ends k s
  | aesCbcDec k => exact execAesCbcDec_ends k s
  | gcmEnc k => exact execGcmEnc_ends k s
  | gcmDec k => exact execGcmDec_ends k s
  | shaInit => exact execShaInit_ends s
  | shaUpdate => exact execShaUpdate_ends s
  | shaFinal => exact execShaFinal_ends s
  | shaOneShot => exact .check fun _ => .complete (.digest (sha256_length _) .refl)
  | hmac => exact .check fun _ => .check fun _ => .complete (.digest (hmacSha256_length _ _) .refl)

/-- What a command answers with is a completion of writes it may make, of none where it failed. -/
theorem exec_eq_next {i : Instr} {s t : State} (h : exec i s = .next t) :
    ∃ u e, Writes i s u ∧ t = u.finish e := by
  rcases exec_ends i s with ⟨e, -, he⟩ | ⟨u, hu, hc⟩
  · exact ⟨s, e, .refl, Host.Outcome.next.inj (h.symm.trans he)⟩
  · exact ⟨u, .ok, hu, Host.Outcome.next.inj (h.symm.trans hc)⟩

end Sys2Proof.Machine
end

section
/-! PROOFS. Which registers the commands write, from the kinds of writes they make (`Writes`). -/

namespace Sys2Proof.Machine

open Sys2Proof

/-- `u` has the registers of `s` that no command writes, and the model's own fields (`20_memory.md` R65). -/
structure SameControl (s u : State) : Prop where
  cmd : u.cmd = s.cmd
  doneEn : u.doneEn = s.doneEn
  ovrEn : u.ovrEn = s.ovrEn
  intOvr : u.intOvr = s.intOvr
  dataOff : u.dataOff = s.dataOff
  dataLen : u.dataLen = s.dataLen
  bnShamt : u.bnShamt = s.bnShamt
  aadLen : u.aadLen = s.aadLen
  hkeyLen : u.hkeyLen = s.hkeyLen
  inputs : u.inputs = s.inputs
  rdata : u.rdata = s.rdata
  draws : u.draws = s.draws

/-- `u` has the RSA key store of `s` (`10_state.md` R34). -/
structure SameRsaStore (s u : State) : Prop where
  rsaN : u.rsaN = s.rsaN
  rsaE : u.rsaE = s.rsaE
  rsaBits : u.rsaBits = s.rsaBits
  rsaKlen : u.rsaKlen = s.rsaKlen
  rsaKv : u.rsaKv = s.rsaKv

namespace Writes

variable {i : Instr} {s u : State}

theorem sameControl (h : Writes i s u) : SameControl s u := by
  induction h with
  | refl => constructor <;> rfl
  | _ => rename_i ih; exact { ih with }

theorem vok_eq (h : Writes i s u) (hi : i ≠ .rsaVerify) : u.vok = s.vok := by
  induction h with
  | refl => rfl
  | vok _ h => exact absurd h hi
  | _ => assumption

theorem cmp_eq (h : Writes i s u) (hi : ¬ ∃ a b, i = .bnCmp a b) : u.cmp = s.cmp := by
  induction h with
  | refl => rfl
  | cmp _ h => exact absurd h hi
  | _ => assumption

theorem result_eq (h : Writes i s u) (hi : ¬ (i = .rsaEnc ∨ ∃ a, i = .bnBitLen a ∨ i = .bnBitTest a)) :
    u.result = s.result := by
  induction h with
  | refl => rfl
  | result _ h => exact absurd h hi
  | _ => assumption

theorem sameRsaStore (h : Writes i s u) (hi : ¬ ∃ a b, i = .rsaSetKey a b) : SameRsaStore s u := by
  induction h with
  | refl => constructor <;> rfl
  | rsaKey _ _ h => exact absurd h hi
  | _ => rename_i ih; exact { ih with }

theorem shaValid_eq (h : Writes i s u) (hi : ¬ (i = .shaInit ∨ i = .shaFinal)) : u.shaValid = s.shaValid := by
  induction h with
  | refl => rfl
  | shaContext _ _ hv _ _ ih =>
      rcases hv with rfl | hv
      · exact ih
      · exact absurd hv hi
  | _ => assumption

/-- The streaming context, its pending block included, is written by the streaming commands only: every other
byte string a command stores lies outside SHA_BUF (`44_sha.md` R135, R136). -/
theorem shaContext_eq (h : Writes i s u) (hi : ¬ (i = .shaInit ∨ i = .shaUpdate ∨ i = .shaFinal)) :
    u.shaContext = s.shaContext := by
  induction h with
  | refl => rfl
  | @window u base bs _ hb _ ih =>
      have buf : (u.writeWindow base bs).shaBufBytes = u.shaBufBytes :=
        Memory.readBytes_writeBytes_apart u.mem bs hb.symm
      rw [← ih, State.shaContext, buf]
      rfl
  | shaContext _ _ _ h => exact absurd h hi
  | _ => assumption

/-- Round keys and KV of a slot are written by AES_KEYEXP on that slot only (`10_state.md` R37). -/
theorem slot_key_eq (h : Writes i s u) {k : Slot} (hi : i ≠ .aesKeyExp k) :
    (u.slot k).rk = (s.slot k).rk ∧ (u.slot k).kv = (s.slot k).kv := by
  induction h with
  | refl => exact ⟨rfl, rfl⟩
  | @keySlot u j _ _ h _ ih =>
      have other : k ≠ j := fun hk => hi (hk ▸ h)
      rwa [State.slot_setSlot_other _ _ other]
  | @nonceUsed u j _ _ _ ih =>
      by_cases same : k = j
      · subst same
        rwa [State.slot_setSlot_same]
      · rwa [State.slot_setSlot_other _ _ same]
  | _ => assumption

/-- NU of a slot is written by AES_KEYEXP and GCM_ENC on that slot only (`10_state.md` R38). -/
theorem slot_nu_eq (h : Writes i s u) {k : Slot} (hi : ¬ (i = .aesKeyExp k ∨ i = .gcmEnc k)) :
    (u.slot k).nu = (s.slot k).nu := by
  induction h with
  | refl => rfl
  | @keySlot u j _ _ h _ ih =>
      have other : k ≠ j := fun hk => hi (.inl (hk ▸ h))
      rwa [State.slot_setSlot_other _ _ other]
  | @nonceUsed u j _ h _ ih =>
      have other : k ≠ j := fun hk => hi (.inr (hk ▸ h))
      rwa [State.slot_setSlot_other _ _ other]
  | _ => assumption

end Writes

/-- Settles O8: the completion itself writes none of these fields, so each is as the command's writes leave
it. -/
theorem commandsWriteOnlyTheirRegisters : Obligations.CommandsWriteOnlyTheirRegisters := by
  intro i s t h
  obtain ⟨u, e, hu, rfl⟩ := exec_eq_next h
  obtain ⟨cmd, doneEn, ovrEn, intOvr, dataOff, dataLen, bnShamt, aadLen, hkeyLen, inputs, rdata, draws⟩ :=
    hu.sameControl
  refine ⟨cmd, doneEn, ovrEn, intOvr, dataOff, dataLen, bnShamt, aadLen, hkeyLen, inputs, rdata, draws,
    ?vok, ?cmp, ?result, ?rsaStore, ?shaValid, ?shaContext, fun k => ⟨?key, ?nonce⟩⟩
  case vok => exact not_imp_comm.mp hu.vok_eq
  case cmp => exact not_imp_comm.mp hu.cmp_eq
  case result => exact not_imp_comm.mp hu.result_eq
  case rsaStore =>
    intro changed
    by_contra hi
    obtain ⟨n, x, bits, klen, kv⟩ := hu.sameRsaStore hi
    rcases changed with h | h | h | h | h
    exacts [h n, h x, h bits, h klen, h kv]
  case shaValid => exact not_imp_comm.mp hu.shaValid_eq
  case shaContext =>
    intro changed
    by_contra hi
    obtain ⟨hash, cnt, buf⟩ := ShaContext.mk.inj (hu.shaContext_eq hi)
    rcases changed with h | h | h
    exacts [h hash, h cnt, h buf]
  case key =>
    intro changed
    by_contra hi
    obtain ⟨rk, kv⟩ := hu.slot_key_eq hi
    rcases changed with h | h
    exacts [h rk, h kv]
  case nonce => exact not_imp_comm.mp hu.slot_nu_eq

end Sys2Proof.Machine
end

section
/-! PROOFS. The invariant: each named update of the state keeps it under its own condition, so commands, host
accesses and resets keep it (`10_state.md` R21, R34, R37, R41). -/

namespace Sys2Proof.Machine

open Sys2Proof

/-! ### Key slots -/

theorem KeySlot.consistent_of_schedule {key : List Byte} (h : key.length = 16) (nu : Bool) :
    KeySlot.Consistent { rk := keySchedule key, kv := true, nu := nu } :=
  .inr ⟨rfl, key, h, rfl⟩

/-- Marking the nonce of a slot that holds a key. -/
theorem KeySlot.Consistent.setNu {k : KeySlot} (h : k.Consistent) (hk : k.kv = true) (nu : Bool) :
    KeySlot.Consistent { k with nu := nu } := by
  rcases h with rfl | hkey
  · exact absurd hk Bool.false_ne_true
  · exact .inr hkey

/-- Clearing the nonce flag of any slot. -/
theorem KeySlot.Consistent.clearNu {k : KeySlot} (h : k.Consistent) :
    KeySlot.Consistent { k with nu := false } := by
  rcases h with rfl | hkey
  · exact .inl rfl
  · exact .inr hkey

/-! ### The bit length of a modulus -/

theorem bitLength_le {v n : Nat} (h : v < 2 ^ n) : bitLength v ≤ n := by
  unfold bitLength
  split
  · exact Nat.zero_le n
  · next hv => exact (Nat.log2_lt hv).mpr h

theorem bitLength_bignum_le (v : Bignum) : bitLength v.toNat ≤ 4096 := bitLength_le v.isLt

/-! ### One rule per update -/

namespace State.Inv

variable {s : State}

theorem finish (h : s.Inv) (e : ErrCode) : (s.finish e).Inv := { h with }
theorem writeBn (h : s.Inv) (r : BnReg) (v : Nat) : (s.writeBn r v).Inv := { h with }
theorem setResult (h : s.Inv) (v : Nat) : (s.setResult v).Inv := { h with }
theorem setVok (h : s.Inv) (b : Bool) : (s.setVok b).Inv := { h with }
theorem setCmp (h : s.Inv) (c : CmpFlag) : (s.setCmp c).Inv := { h with }

theorem slot_consistent (h : s.Inv) (k : Slot) : (s.slot k).Consistent := by
  cases k
  · exact h.slot0
  · exact h.slot1

theorem setSlot (h : s.Inv) (k : Slot) {v : KeySlot} (hv : v.Consistent) : (s.setSlot k v).Inv := by
  cases k
  · exact { h with slot0 := hv }
  · exact { h with slot1 := hv }

theorem writeWindow (h : s.Inv) {base : Nat} {bs : List Byte} (hw : InOneWindow base bs.length) :
    (s.writeWindow base bs).Inv :=
  { h with
    mem_wf := Memory.wf_writeBytes h.mem_wf base bs
    mem_windows := fun c hc => by
      rcases Memory.mem_writeBytes hc with ⟨lo, hi⟩ | old
      · exact inByteWindow_of_inOneWindow hw lo hi
      · exact h.mem_windows c old }

theorem setRsaKey (h : s.Inv) {n : Bignum} (e : Bignum) (hn : n ≠ 0) : (s.setRsaKey n e).Inv := by
  have bound := bitLength_bignum_le n
  have bits : (s.setRsaKey n e).rsaBits.toNat = bitLength n.toNat := by
    rw [State.setRsaKey_rsaBits, BitVec.toNat_ofNat]
    omega
  have klen : (s.setRsaKey n e).rsaKlen.toNat = (bitLength n.toNat + 7) / 8 := by
    rw [State.setRsaKey_rsaKlen, BitVec.toNat_ofNat]
    omega
  exact { h with
    rsa_bits := bits
    rsa_klen := by rw [klen, bits]
    rsa_valid := iff_of_true rfl hn
    rsa_empty := fun hk => absurd hk.symm Bool.false_ne_true }

theorem setShaContext (h : s.Inv) {c : ShaContext} (b : Bool) (hl : c.buf.length = Config.shaBlockBytes)
    (hc : c.cnt.toNat % 8 = 0) : (s.setShaContext c b).Inv := by
  have stored : (s.writeWindow Win.shaBuf c.buf).Inv :=
    h.writeWindow ⟨(Win.shaBuf, 64), by decide, Nat.le_refl _, by rw [hl]⟩
  exact { stored with cnt_whole := hc }

end State.Inv

/-! ### Reset -/

/-- Settles O11. -/
theorem invHoldsAtReset : Obligations.InvHoldsAtReset where
  mem_wf := Memory.wf_reset
  mem_windows := fun _ hc => absurd hc List.not_mem_nil
  cnt_whole := rfl
  rsa_bits := (congrArg bitLength BitVec.toNat_zero).symm
  rsa_klen := rfl
  rsa_valid := iff_of_false Bool.false_ne_true fun h => h rfl
  rsa_empty := fun _ => rfl
  slot0 := .inl rfl
  slot1 := .inl rfl

theorem State.inv_resetBlock (s : State) : s.resetBlock.Inv := { invHoldsAtReset with }

/-! ### Commands -/

theorem Writes.inv {i : Instr} {s u : State} (h : Writes i s u) (hs : s.Inv) : u.Inv := by
  induction h with
  | refl => exact hs
  | bn rd v _ ih => exact ih.writeBn rd v
  | window hw _ _ ih => exact ih.writeWindow hw
  | result v _ _ ih => exact ih.setResult v
  | vok b _ _ ih => exact ih.setVok b
  | cmp c _ _ ih => exact ih.setCmp c
  | rsaKey e hn _ _ ih => exact ih.setRsaKey e hn
  | keySlot hk _ _ ih => exact ih.setSlot _ (KeySlot.consistent_of_schedule hk false)
  | nonceUsed hk _ _ ih => exact ih.setSlot _ ((ih.slot_consistent _).setNu hk true)
  | shaContext hl hc _ _ _ ih => exact ih.setShaContext _ hl (hc hs.cnt_whole)

theorem exec_keeps_inv {i : Instr} {s t : State} (hs : s.Inv) (h : exec i s = .next t) : t.Inv := by
  obtain ⟨u, e, hu, rfl⟩ := exec_eq_next h
  exact (hu.inv hs).finish e

theorem engineTurn_keeps_inv {s t : State} (hs : s.Inv) (h : engineTurn s = .next t) : t.Inv := by
  rcases engineTurn_eq_next h with ⟨-, rfl⟩ | ⟨-, i, -, hx⟩ | ⟨-, -, rfl⟩
  · exact hs
  · exact exec_keeps_inv hs hx
  · exact hs.finish .illegal

end Sys2Proof.Machine
end

section
/-! PROOFS. The register map (`10_state.md` R21): where each register stands, and what stands at an offset. -/

namespace Sys2Proof.Machine

open Sys2Proof

theorem inSpan_iff {off lo size : Nat} : inSpan off lo size = true ↔ Span lo size off := by
  simp only [inSpan, Span, Bool.and_eq_true, decide_eq_true_eq]

theorem inByteWindow_iff {a : Nat} : inByteWindow a = true ↔ ∃ w ∈ byteWindows, Span w.1 w.2 a := by
  simp only [inByteWindow, Span, List.any_eq_true, Bool.and_eq_true, decide_eq_true_eq]

/-! ### From a register to its offset -/

/-- What the map says of the offset `off` at which a register stands, for ID and the byte windows. -/
def WindowReg.StandsAt (off : Nat) : WindowReg → Prop
  | .id => off = 0x0000
  | .nonceWord k o => o = off ∧ Span (Win.gcmIv k) 12 off
  | .byteWord o => o = off ∧ inByteWindow off = true
  | _ => True

theorem locate_standsAt (off : Nat) : (locate off).StandsAt off := by
  unfold locate
  repeat' refine iteInduction (fun h => ?_) (fun _ => ?_)
  all_goals try exact trivial
  · exact h
  · exact ⟨rfl, inSpan_iff.mp h⟩
  · exact ⟨rfl, inSpan_iff.mp h⟩
  · exact ⟨rfl, h⟩

theorem locate_eq_id {off : Nat} (h : locate off = .id) : off = 0x0000 := by
  have := locate_standsAt off
  rwa [h] at this

theorem locate_eq_nonceWord {off o : Nat} {k : Slot} (h : locate off = .nonceWord k o) :
    o = off ∧ Span (Win.gcmIv k) 12 off := by
  have := locate_standsAt off
  rwa [h] at this

theorem locate_eq_byteWord {off o : Nat} (h : locate off = .byteWord o) : o = off ∧ inByteWindow off = true := by
  have := locate_standsAt off
  rwa [h] at this

theorem byteWindows_aligned : ∀ w ∈ byteWindows, w.1 % 4 = 0 ∧ w.2 % 4 = 0 := by decide

/-- An aligned word of a byte window lies in it whole: the windows start and end at multiples of 4. -/
theorem inOneWindow_word {off : Nat} (ha : off % 4 = 0) (h : inByteWindow off = true) : InOneWindow off 4 := by
  obtain ⟨w, hw, lo, hi⟩ := inByteWindow_iff.mp h
  obtain ⟨hbase, hsize⟩ := byteWindows_aligned w hw
  exact ⟨w, hw, lo, by omega⟩

theorem inByteWindow_nonce {off : Nat} {k : Slot} (h : Span (Win.gcmIv k) 12 off) : inByteWindow off = true :=
  inByteWindow_iff.mpr ⟨(Win.gcmIv k, 12), by cases k <;> decide, h⟩

/-! ### From an offset to its register -/

theorem inByteWindow_iff_offsets {a : Nat} : inByteWindow a = true ↔
    (0x0040 ≤ a ∧ a < 0x006C) ∨ (0x0070 ≤ a ∧ a < 0x007C) ∨ (0x0080 ≤ a ∧ a < 0x0090) ∨
      (0x00A0 ≤ a ∧ a < 0x00C0) ∨ (0x0100 ≤ a ∧ a < 0x0140) ∨ (0x0200 ≤ a ∧ a < 0x0240) ∨
      (0x0280 ≤ a ∧ a < 0x0300) ∨ (0x0400 ≤ a ∧ a < 0x0600) ∨ (0x4000 ≤ a ∧ a < 0x8000) := by
  simp only [inByteWindow_iff, byteWindows, Span, List.mem_cons, List.not_mem_nil, or_false, exists_eq_or_imp,
    exists_eq_left, Win.aesKey, Win.aesIv, Win.gcmIv0, Win.gcmIv1, Win.tag, Win.digest, Win.shaBuf, Win.aad,
    Win.hkey, Win.psBuf, Win.data]
  omega

/-- Word `j` of a bignum register (`10_state.md` R31). -/
theorem locate_bnWord (r : BnReg) {j : Nat} (h : j < 128) :
    locate (0x0800 + 0x200 * regIndex r + 4 * j) = .bnWord r j := by
  cases r <;>
  · simp (disch := omega) only [regIndex, locate, inSpan_iff, Span, Win.gcmIv0, Win.gcmIv1,
      inByteWindow_iff_offsets, if_neg, if_pos]
    congr 1
    omega

/-- Round-key word `i` of a slot (`10_state.md` R37). -/
theorem locate_rkWord (k : Slot) {i : Nat} (h : i < 44) :
    locate (0x1000 + 0x100 * slotIndex k + 4 * i) = .rkWord k i := by
  cases k <;>
  · simp (disch := omega) only [slotIndex, locate, inSpan_iff, Span, Win.gcmIv0, Win.gcmIv1,
      inByteWindow_iff_offsets, if_neg, if_pos]
    congr 1
    omega

/-- The reserved offsets below DATA (`10_state.md` R22). -/
def ReservedOffset (off : Nat) : Prop :=
  (0x0038 ≤ off ∧ off < 0x0040) ∨ off = 0x006C ∨ off = 0x007C ∨ (0x0090 ≤ off ∧ off < 0x00A0) ∨
    (0x00EC ≤ off ∧ off < 0x0100) ∨ (0x0140 ≤ off ∧ off < 0x0200) ∨ (0x0240 ≤ off ∧ off < 0x0280) ∨
    (0x0300 ≤ off ∧ off < 0x0400) ∨ (0x0600 ≤ off ∧ off < 0x0800) ∨ (0x10B0 ≤ off ∧ off < 0x1100) ∨
    (0x11B0 ≤ off ∧ off < 0x4000)

theorem locate_reserved {off : Nat} (h : ReservedOffset off) : locate off = .reserved := by
  unfold ReservedOffset at h
  simp (disch := omega) only [locate, inSpan_iff, Span, Win.gcmIv0, Win.gcmIv1, inByteWindow_iff_offsets, if_neg]

end Sys2Proof.Machine
end

section
/-! PROOFS. The halves of SHA_CNT as the host reads and writes them (`10_state.md` R41). -/

namespace Sys2Proof.Machine

open Sys2Proof

theorem toNat_append_words (hi lo : Word) : (hi ++ lo : Dword).toNat = hi.toNat * 2 ^ 32 + lo.toNat := by
  rw [BitVec.toNat_append, Nat.shiftLeft_eq, Nat.mul_comm, Nat.two_pow_add_eq_or_of_lt lo.isLt]

/-- The hardwired bits 2:0. -/
theorem toNat_maskWhole (v : Word) : (v &&& 0xFFFFFFF8).toNat = v.toNat / 8 * 8 := by
  have mask : v &&& (0xFFFFFFF8 : Word) = v >>> 3 <<< 3 := by
    apply BitVec.eq_of_getLsbD_eq
    intro i hi
    interval_cases i <;> simp
  rw [mask, BitVec.toNat_shiftLeft, BitVec.toNat_ushiftRight, Nat.shiftRight_eq_div_pow, Nat.shiftLeft_eq]
  omega

theorem toNat_lowWord (c : Dword) : (c.extractLsb' 0 32).toNat = c.toNat % 2 ^ 32 := by
  simp

theorem toNat_highWord (c : Dword) : (c.extractLsb' 32 32).toNat = c.toNat / 2 ^ 32 := by
  rw [BitVec.extractLsb'_toNat, Nat.shiftRight_eq_div_pow]
  omega

end Sys2Proof.Machine
end
section
/-! PROOFS. Host accesses and resets keep the invariant, so every step does (`20_memory.md` R69). -/

namespace Sys2Proof.Machine

open Sys2Proof

theorem State.idleWrite_keeps_inv {s : State} (h : s.Inv) {off : Nat} (ha : off % 4 = 0) (v : Word) :
    (s.idleWrite off v).Inv := by
  unfold State.idleWrite
  cases hl : locate off with
  | ctrl =>
      dsimp only
      split
      · exact s.inv_resetBlock
      · exact h
  | shaCntLo =>
      refine { h with cnt_whole := ?_ }
      rw [toNat_append_words, toNat_maskWhole]
      omega
  | shaCntHi =>
      have whole := h.cnt_whole
      refine { h with cnt_whole := ?_ }
      rw [toNat_append_words, toNat_lowWord]
      omega
  | nonceWord k o =>
      obtain ⟨rfl, hspan⟩ := locate_eq_nonceWord hl
      have stored : (s.writeWindow o (wordToLanes v)).Inv :=
        h.writeWindow (inOneWindow_word ha (inByteWindow_nonce hspan))
      exact stored.setSlot k (stored.slot_consistent k).clearNu
  | byteWord o =>
      obtain ⟨rfl, hwin⟩ := locate_eq_byteWord hl
      exact h.writeWindow (inOneWindow_word ha hwin)
  | _ => exact { h with }

theorem State.busyWrite_keeps_inv {s : State} (h : s.Inv) (off : Nat) (v : Word) : (s.busyWrite off v).Inv := by
  unfold State.busyWrite
  cases locate off with
  | ctrl =>
      dsimp only
      split
      · exact s.inv_resetBlock
      · exact h
  | _ => exact { h with }

theorem State.hostWrite_keeps_inv {s : State} (h : s.Inv) {off : Nat} (ha : off % 4 = 0) (v : Word) :
    (s.hostWrite off v).Inv := by
  unfold State.hostWrite
  split
  · exact s.busyWrite_keeps_inv h off v
  · exact s.idleWrite_keeps_inv h ha v

theorem State.hostRead_keeps_inv {s : State} (h : s.Inv) (off : Nat) : (s.hostRead off).Inv := by
  unfold State.hostRead
  split
  · exact { h with }
  · exact { h with }

/-- An access the block defines is aligned (`20_memory.md` R54). -/
theorem AccessShape.aligned_of_wellFormed {a : AccessShape} (h : a.wellFormed = true) : a.offset % 4 = 0 := by
  unfold AccessShape.wellFormed at h
  obtain ⟨-, aligned⟩ := Bool.and_eq_true_iff.mp h
  exact beq_iff_eq.mp aligned

theorem HostAccess.apply_keeps_inv {s : State} (h : s.Inv) {a : HostAccess} (ha : a.shape.wellFormed = true) :
    (a.apply s).Inv := by
  cases a with
  | read shape => exact s.hostRead_keeps_inv h shape.offset
  | write shape v => exact s.hostWrite_keeps_inv h (AccessShape.aligned_of_wellFormed ha) v

/-- The model's own list of inputs is no part of the invariant. -/
theorem State.Inv.withInputs {s : State} (h : s.Inv) (rest : List Input) : { s with inputs := rest }.Inv :=
  { h with }

/-- Settles O12, over the kinds of step: the engine's turn, a host access, a hard reset. -/
theorem stepKeepsInv : Obligations.StepKeepsInv := by
  intro s t h hstep
  rcases step_eq_next hstep with ⟨-, hx⟩ | ⟨rest, -, hx⟩ | ⟨a, rest, -, ha, rfl⟩ | ⟨rest, -, rfl⟩
  · exact engineTurn_keeps_inv h hx
  · exact engineTurn_keeps_inv (h.withInputs rest) hx
  · exact HostAccess.apply_keeps_inv (h.withInputs rest) ha
  · exact State.inv_resetBlock _

end Sys2Proof.Machine
end

section
/-! PROOFS. The streaming hash reads its pending block only below SHA_PEND: the byte at SHA_PEND is overwritten
before a block is compressed (`10_state.md` R43, `44_sha.md` R129). -/

namespace Sys2Proof.Machine

open Sys2Proof

theorem shaPending_lt (cnt : Dword) : shaPending cnt < 64 := Nat.mod_lt _ (by decide)

/-- One byte more is pending, modulo the block, also where the counter wraps. -/
theorem shaPending_add_byte (cnt : Dword) : shaPending (cnt + 8) = (shaPending cnt + 1) % 64 := by
  have wrap : (cnt + 8).toNat = (cnt.toNat + 8) % 2 ^ 64 := BitVec.toNat_add cnt 8
  unfold shaPending
  rw [Nat.shiftRight_eq_div_pow, Nat.shiftRight_eq_div_pow, wrap]
  omega

/-- Two contexts that differ at most in the bytes of their buffers from SHA_PEND on. -/
structure SameButStale (c d : ShaContext) : Prop where
  h : c.h = d.h
  cnt : c.cnt = d.cnt
  len_left : c.buf.length = 64
  len_right : d.buf.length = 64
  pending : ∀ j, j < shaPending c.cnt → c.buf.getD j 0 = d.buf.getD j 0

/-- Storing the same byte at `p` makes two buffers that agree below `p` agree up to it. -/
theorem getD_set_eq_of_agree {b b' : List Byte} {p : Nat} (x : Byte) (hb : p < b.length) (hb' : p < b'.length)
    (agree : ∀ j, j < p → b.getD j 0 = b'.getD j 0) {j : Nat} (hj : j < p + 1) :
    (b.set p x).getD j 0 = (b'.set p x).getD j 0 := by
  rcases Nat.lt_succ_iff_lt_or_eq.mp hj with below | rfl
  · have := agree j below
    simpa [List.getD_eq_getElem?_getD, List.getElem?_set_ne (Nat.ne_of_gt below)] using this
  · simp [List.getD_eq_getElem?_getD, hb, hb']

theorem eq_of_getD_eq {b b' : List Byte} (hl : b.length = b'.length)
    (h : ∀ j, j < b.length → b.getD j 0 = b'.getD j 0) : b = b' := by
  refine List.ext_getElem hl fun j hj hj' => ?_
  simpa [List.getD_eq_getElem?_getD, hj, hj'] using h j hj

theorem SameButStale.absorbByte {c d : ShaContext} (s : SameButStale c d) (x : Byte) :
    SameButStale (absorbByte c x) (absorbByte d x) := by
  obtain ⟨h, cnt, hc, hd, pending⟩ := s
  have lt := shaPending_lt c.cnt
  have agree (j : Nat) (hj : j < shaPending c.cnt + 1) :
      (c.buf.set (shaPending c.cnt) x).getD j 0 = (d.buf.set (shaPending c.cnt) x).getD j 0 :=
    getD_set_eq_of_agree x (hc.symm ▸ lt) (hd.symm ▸ lt) pending hj
  have next := shaPending_add_byte c.cnt
  unfold Machine.absorbByte
  rw [← cnt, ← h]
  refine ⟨?_, rfl, by simpa using hc, by simpa using hd, fun j hj => agree j ?_⟩
  · dsimp only
    split
    · next full =>
        rw [eq_of_getD_eq (by simp [hc, hd]) fun j hj => agree j ?_]
        rw [List.length_set, hc] at hj
        omega
    · rfl
  · dsimp only at hj
    omega

theorem SameButStale.absorb {c d : ShaContext} (s : SameButStale c d) (msg : List Byte) :
    SameButStale (absorb c msg) (absorb d msg) := by
  induction msg generalizing c d with
  | nil => exact s
  | cons x msg ih => exact ih (s.absorbByte x)

/-- Settles O45: absorbing keeps the contexts equal but for stale bytes, and so does the padding, which reads the
counter only. -/
theorem staleBytesDoNotMatter : Obligations.StaleBytesDoNotMatter := by
  intro c d msg h cnt hc hd pending
  have s : SameButStale (absorb c msg) (absorb d msg) := SameButStale.absorb ⟨h, cnt, hc, hd, pending⟩ msg
  have padding : shaPadding (absorb d msg).cnt = shaPadding (absorb c msg).cnt := by rw [s.cnt]
  unfold finishContext
  rw [padding]
  exact (s.absorb _).h

end Sys2Proof.Machine
end

section
/-! PROOFS. Registers at their offsets: what a read gives and what an idle write does, through `locate`
(`10_state.md` R21 to R42). -/

namespace Sys2Proof.Machine

open Sys2Proof

/-! ### Writes while idle and resets -/

theorem State.hostWrite_of_idle {s : State} (h : s.busy = false) (off : Nat) (v : Word) :
    s.hostWrite off v = s.idleWrite off v := by
  rw [State.hostWrite, h]
  rfl

/-- A CTRL write does the same busy or idle (`10_state.md` R30, `20_memory.md` R62). -/
theorem State.hostWrite_ctrl (s : State) (v : Word) :
    s.hostWrite 0x002C v = if v.getLsbD 0 then s.resetBlock else s := by
  unfold State.hostWrite
  split <;> rfl

/-- Settles O10. -/
theorem resetsReturnTheBlockToReset : Obligations.ResetsReturnTheBlockToReset := by
  refine ⟨fun s v hv => ?_, fun s v hv => ?_, fun s rest hi => ?_, fun s => ⟨rfl, rfl⟩⟩
  · rw [State.hostWrite_ctrl, hv]
    rfl
  · rw [State.hostWrite_ctrl, hv]
    rfl
  · rw [step, nextStep, hi]
    rfl

/-! ### The words of a bignum -/

theorem bnWord_toNat (v : Bignum) (j : Nat) : (bnWord v j).toNat = v.toNat / (2 ^ 32) ^ j % 2 ^ 32 := by
  rw [bnWord, BitVec.extractLsb'_toNat, Nat.shiftRight_eq_div_pow, pow_mul]

/-- The lowest `n` digits of a number in base `b`, summed up. -/
theorem sum_digits_eq_mod (b v n : Nat) : ∑ j ∈ Finset.range n, v / b ^ j % b * b ^ j = v % b ^ n := by
  induction n with
  | zero => simp [Nat.mod_one]
  | succ n ih => rw [Finset.sum_range_succ, ih, Nat.mod_pow_succ, Nat.mul_comm (b ^ n)]

theorem sum_bnWords (v : Bignum) : ∑ j ∈ Finset.range 128, (bnWord v j).toNat * 2 ^ (32 * j) = v.toNat :=
  calc ∑ j ∈ Finset.range 128, (bnWord v j).toNat * 2 ^ (32 * j)
      = ∑ j ∈ Finset.range 128, v.toNat / (2 ^ 32) ^ j % 2 ^ 32 * (2 ^ 32) ^ j :=
        Finset.sum_congr rfl fun j _ => by rw [bnWord_toNat, pow_mul]
    _ = v.toNat % (2 ^ 32) ^ 128 := sum_digits_eq_mod _ _ _
    _ = v.toNat := Nat.mod_eq_of_lt (by rw [← pow_mul]; exact v.isLt)

theorem getLsbD_wordMask (n : Nat) : (0xFFFFFFFF : Bignum).getLsbD n = decide (n < 32) := by
  have mask : (0xFFFFFFFF : Bignum) = BitVec.ofNat 4096 (2 ^ 32 - 1) := rfl
  rw [mask, BitVec.getLsbD_ofNat, Nat.testBit_two_pow_sub_one]
  by_cases h : n < 32
  · simp [h]; omega
  · simp [h]

/-- Replacing word `j`, bit by bit. -/
theorem getLsbD_setBnWord (v : Bignum) (j : Nat) (x : Word) {p : Nat} (hp : p < 4096) :
    (setBnWord v j x).getLsbD p = if p / 32 = j then x.getLsbD (p - 32 * j) else v.getLsbD p := by
  simp only [setBnWord, BitVec.getLsbD_or, BitVec.getLsbD_and, BitVec.getLsbD_not, BitVec.getLsbD_shiftLeft,
    BitVec.getLsbD_setWidth, getLsbD_wordMask, hp]
  have fits : p - 32 * j < 4096 := by omega
  rcases Nat.lt_trichotomy (p / 32) j with below | inside | above
  · have : p < 32 * j := by omega
    simp [this, below.ne]
  · have : ¬ p < 32 * j ∧ p - 32 * j < 32 := by omega
    simp [this, inside, fits]
  · have : ¬ p < 32 * j ∧ ¬ p - 32 * j < 32 := by omega
    simp [this, above.ne', fits, BitVec.getLsbD_of_ge x (p - 32 * j) (by omega)]

/-- Replacing word `j` (`10_state.md` R31). -/
theorem bnWord_setBnWord (v : Bignum) (x : Word) {i j : Nat} (hi : i < 128) :
    bnWord (setBnWord v j x) i = if i = j then x else bnWord v i := by
  apply BitVec.eq_of_getLsbD_eq
  intro b hb
  have word : (32 * i + b) / 32 = i := by omega
  rw [bnWord, BitVec.getLsbD_extractLsb', getLsbD_setBnWord _ _ _ (by omega), word]
  split
  · next same => simp [same, hb]
  · simp [bnWord, hb]

theorem State.windowValue_bnWord (s : State) (r : BnReg) {j : Nat} (h : j < 128) :
    s.windowValue (0x0800 + 0x200 * regIndex r + 4 * j) = bnWord (s.bn.get r) j := by
  rw [State.windowValue, locate_bnWord r h]

theorem State.hostWrite_bnWord {s : State} (hb : s.busy = false) (r : BnReg) {j : Nat} (h : j < 128) (x : Word) :
    s.hostWrite (0x0800 + 0x200 * regIndex r + 4 * j) x =
      { s with bn := s.bn.set r (setBnWord (s.bn.get r) j x) } := by
  rw [State.hostWrite_of_idle hb, State.idleWrite, locate_bnWord r h]

/-- Settles O54, through the words of a register's value. -/
theorem bignumWordsAreLittleEndian : Obligations.BignumWordsAreLittleEndian := by
  intro s r
  refine ⟨?_, fun j x hj hb => ?_⟩
  · calc s.readBn r = ∑ j ∈ Finset.range 128, (bnWord (s.bn.get r) j).toNat * 2 ^ (32 * j) :=
          (sum_bnWords (s.bn.get r)).symm
      _ = _ := Finset.sum_congr rfl fun j hj => by rw [s.windowValue_bnWord r (Finset.mem_range.mp hj)]
  · rw [State.hostWrite_bnWord hb r hj]
    refine ⟨rfl, fun q i hi => ?_⟩
    rw [State.windowValue_bnWord _ q hi, State.windowValue_bnWord _ q hi]
    by_cases same : q = r
    · subst same
      simp only [BnFile.get_set_same, bnWord_setBnWord _ _ hi, true_and]
    · simp only [BnFile.get_set_other _ _ same, same, false_and, if_false]

/-! ### Every offset at reset -/

theorem bnWord_zero (j : Nat) : bnWord 0 j = 0 := by
  simp [bnWord]

theorem roundKeyWord_reset (i : Nat) : roundKeyWord KeySlot.reset.rk i = 0 := by
  rw [roundKeyWord, KeySlot.reset, Vector.toList_replicate, List.getD_eq_getElem?_getD,
    List.getElem?_getD_replicate_default_eq]

theorem State.byteWindowWord_reset (o : Nat) : State.reset.byteWindowWord o = 0 :=
  show lanesToWord 0 0 0 0 = 0 by decide

theorem BnFile.get_reset (r : BnReg) : State.reset.bn.get r = 0 := by
  cases r <;> rfl

theorem State.slot_reset (k : Slot) : State.reset.slot k = KeySlot.reset := by
  cases k <;> rfl

/-- Settles O9: register by register over the map; only ID is not zero, and it stands at offset 0. -/
theorem resetValuesAreTheSpecs : Obligations.ResetValuesAreTheSpecs := by
  refine ⟨fun off _ _ => ?_, fun a => rfl, fun r => ?_, fun k i => ?_, rfl, rfl, rfl, rfl, rfl, rfl⟩
  · by_cases h0 : off = 0
    · subst h0
      rfl
    · rw [if_neg h0, State.windowValue]
      cases hl : locate off with
      | id => exact absurd (locate_eq_id hl) h0
      | bnWord r j =>
          dsimp only
          rw [BnFile.get_reset, bnWord_zero]
      | rkWord k i =>
          show roundKeyWord (State.reset.slot k).rk i = 0
          rw [State.slot_reset, roundKeyWord_reset]
      | shaH j =>
          dsimp only
          unfold Hash8.get
          split <;> rfl
      | nonceWord _ o => exact State.byteWindowWord_reset o
      | byteWord o => exact State.byteWindowWord_reset o
      | _ => rfl
  · exact (congrArg BitVec.toNat (BnFile.get_reset r)).trans BitVec.toNat_zero
  · rw [State.slot_reset]
    exact ⟨roundKeyWord_reset i, rfl, rfl⟩

end Sys2Proof.Machine
end

section
/-! PROOFS. STATUS bit by bit (`10_state.md` R25, `60_exceptions.md` R143). -/

namespace Sys2Proof.Machine

open Sys2Proof

/-- The layout of STATUS, over any values of its fields: each field joined in at its bits. -/
theorem status_layout (nu1 nu0 rsa kv1 kv0 sha vok busy : Bool) (err : BitVec 8) (cmp : BitVec 2) :
    let v := (0 : BitVec 10) ++ BitVec.ofBool nu1 ++ BitVec.ofBool nu0 ++ BitVec.ofBool rsa ++ BitVec.ofBool kv1 ++
      BitVec.ofBool kv0 ++ BitVec.ofBool sha ++ err ++ (0 : BitVec 4) ++ cmp ++ BitVec.ofBool vok ++
      BitVec.ofBool busy
    v.getLsbD 0 = busy ∧ v.getLsbD 1 = vok ∧ v.extractLsb' 4 4 = 0 ∧ v.getLsbD 16 = sha ∧
      v.getLsbD 17 = kv0 ∧ v.getLsbD 18 = kv1 ∧ v.getLsbD 19 = rsa ∧ v.getLsbD 20 = nu0 ∧ v.getLsbD 21 = nu1 ∧
      v.extractLsb' 22 10 = 0 ∧ v.extractLsb' 2 2 = cmp ∧ v.extractLsb' 8 8 = err := by
  -- The width of the low part is named: in the literal width 32 `simp` finds no sum of two widths by itself.
  and_intros <;>
  · simp [-BitVec.getLsbD_eq_getElem, @BitVec.getLsbD_append _ 1, @BitVec.getLsbD_append _ 2,
      @BitVec.getLsbD_append _ 4, @BitVec.getLsbD_append _ 8, @BitVec.extractLsb'_append_eq_of_le _ 1,
      @BitVec.extractLsb'_append_eq_of_le _ 2, @BitVec.extractLsb'_append_eq_of_le _ 4,
      @BitVec.extractLsb'_append_eq_of_le _ 8, @BitVec.extractLsb'_append_eq_of_add_le _ 2,
      @BitVec.extractLsb'_append_eq_of_add_le _ 4, @BitVec.extractLsb'_append_eq_of_add_le _ 8]

/-- Settles O55. -/
theorem statusFieldsStandAtTheirBits : Obligations.StatusFieldsStandAtTheirBits := by
  intro s
  obtain ⟨busy, vok, low, sha, kv0, kv1, rsa, nu0, nu1, high, cmp, err⟩ :=
    status_layout s.slots.s1.nu s.slots.s0.nu s.rsaKv s.slots.s1.kv s.slots.s0.kv s.shaValid s.vok s.busy
      s.err.code s.cmp.code
  refine ⟨busy, vok, low, sha, kv0, kv1, rsa, nu0, nu1, high, cmp.trans ?_, err.trans ?_⟩
  · cases s.cmp <;> rfl
  · cases s.err <;> rfl

end Sys2Proof.Machine
end

section
/-! PROOFS. The word registers: reads, idle writes and read-back, offset by offset (`10_state.md` R22 to R29, R34,
R37, R40 to R42). -/

namespace Sys2Proof.Machine

open Sys2Proof

namespace State

variable (s : State)

/-! ### Reads -/

theorem windowValue_rkWord (k : Slot) {i : Nat} (h : i < 44) :
    s.windowValue (0x1000 + 0x100 * slotIndex k + 4 * i) = roundKeyWord (s.slot k).rk i := by
  rw [State.windowValue, locate_rkWord k h]
  rfl

theorem windowValue_reserved {off : Nat} (h : ReservedOffset off) : s.windowValue off = 0 := by
  rw [State.windowValue, locate_reserved h]

theorem windowValue_shaCtx : s.windowValue 0x00E8 = if s.shaValid then 1 else 0 := by
  show BitVec.setWidth 32 (BitVec.ofBool s.shaValid) = _
  cases s.shaValid <;> rfl

theorem toNat_windowValue_shaCntLo : (s.windowValue 0x00E0).toNat = s.shaCnt.toNat % 2 ^ 32 :=
  toNat_lowWord s.shaCnt

theorem toNat_windowValue_shaCntHi : (s.windowValue 0x00E4).toNat = s.shaCnt.toNat / 2 ^ 32 :=
  toNat_highWord s.shaCnt

theorem toNat_windowValue_rsaBits : (s.windowValue 0x0030).toNat = s.rsaBits.toNat :=
  BitVec.toNat_setWidth_of_le (by decide)

theorem toNat_windowValue_rsaKlen : (s.windowValue 0x0034).toNat = s.rsaKlen.toNat :=
  BitVec.toNat_setWidth_of_le (by decide)

/-! ### Idle writes -/

theorem idleWrite_reserved {off : Nat} (h : ReservedOffset off) (v : Word) : s.idleWrite off v = s := by
  rw [State.idleWrite, locate_reserved h]

theorem idleWrite_readOnly {off : Nat} (h : off ∈ [0x0000, 0x0008, 0x0014, 0x0030, 0x0034]) (v : Word) :
    s.idleWrite off v = s := by
  simp only [List.mem_cons, List.not_mem_nil, or_false] at h
  rcases h with rfl | rfl | rfl | rfl | rfl <;> rfl

theorem idleWrite_rkWord {off : Nat} (ha : off % 4 = 0)
    (h : (0x1000 ≤ off ∧ off < 0x10B0) ∨ (0x1100 ≤ off ∧ off < 0x11B0)) (v : Word) : s.idleWrite off v = s := by
  obtain ⟨k, i, hi, rfl⟩ : ∃ (k : Slot) (i : Nat), i < 44 ∧ off = 0x1000 + 0x100 * slotIndex k + 4 * i := by
    rcases h with h | h
    · exact ⟨.s0, (off - 0x1000) / 4, by omega, by simp only [slotIndex]; omega⟩
    · exact ⟨.s1, (off - 0x1100) / 4, by omega, by simp only [slotIndex]; omega⟩
  rw [State.idleWrite, locate_rkWord k hi]

theorem idleWrite_shaCntLo (v : Word) : s.idleWrite 0x00E0 v =
    { s with shaCnt := BitVec.ofNat 64 (s.shaCnt.toNat / 2 ^ 32 * 2 ^ 32 + v.toNat / 8 * 8) } := by
  have cnt : (s.shaCnt.extractLsb' 32 32 ++ (v &&& 0xFFFFFFF8) : Dword) =
      BitVec.ofNat 64 (s.shaCnt.toNat / 2 ^ 32 * 2 ^ 32 + v.toNat / 8 * 8) := by
    rw [← toNat_highWord, ← toNat_maskWhole, ← toNat_append_words, BitVec.ofNat_toNat, BitVec.setWidth_eq]
  rw [← cnt]
  rfl

theorem idleWrite_shaCntHi (v : Word) : s.idleWrite 0x00E4 v =
    { s with shaCnt := BitVec.ofNat 64 (v.toNat * 2 ^ 32 + s.shaCnt.toNat % 2 ^ 32) } := by
  have cnt : (v ++ s.shaCnt.extractLsb' 0 32 : Dword) =
      BitVec.ofNat 64 (v.toNat * 2 ^ 32 + s.shaCnt.toNat % 2 ^ 32) := by
    rw [← toNat_lowWord, ← toNat_append_words, BitVec.ofNat_toNat, BitVec.setWidth_eq]
  rw [← cnt]
  rfl

/-! ### Read-back of the halves of SHA_CNT and of SHA_CTX -/

theorem idleWrite_shaCntLo_lo (v : Word) : (s.idleWrite 0x00E0 v).windowValue 0x00E0 = v &&& 0xFFFFFFF8 := by
  show (s.shaCnt.extractLsb' 32 32 ++ (v &&& 0xFFFFFFF8) : Dword).extractLsb' 0 32 = _
  exact BitVec.extractLsb'_append_eq_right

theorem idleWrite_shaCntLo_hi (v : Word) :
    (s.idleWrite 0x00E0 v).windowValue 0x00E4 = s.windowValue 0x00E4 := by
  show (s.shaCnt.extractLsb' 32 32 ++ (v &&& 0xFFFFFFF8) : Dword).extractLsb' 32 32 = s.shaCnt.extractLsb' 32 32
  exact BitVec.extractLsb'_append_eq_left

theorem idleWrite_shaCntHi_hi (v : Word) : (s.idleWrite 0x00E4 v).windowValue 0x00E4 = v := by
  show (v ++ s.shaCnt.extractLsb' 0 32 : Dword).extractLsb' 32 32 = v
  exact BitVec.extractLsb'_append_eq_left

theorem idleWrite_shaCntHi_lo (v : Word) :
    (s.idleWrite 0x00E4 v).windowValue 0x00E0 = s.windowValue 0x00E0 := by
  show (v ++ s.shaCnt.extractLsb' 0 32 : Dword).extractLsb' 0 32 = s.shaCnt.extractLsb' 0 32
  exact BitVec.extractLsb'_append_eq_right

theorem idleWrite_shaCtx_readBack (v : Word) : (s.idleWrite 0x00E8 v).windowValue 0x00E8 = v &&& 1 := by
  show BitVec.setWidth 32 (BitVec.ofBool (v.getLsbD 0)) = v &&& 1
  apply BitVec.eq_of_getLsbD_eq
  intro i hi
  cases i with
  | zero => simp
  | succ i => simp

/-- The plain word registers read back what an idle write stored (`10_state.md` R29, R40, R41). -/
theorem idleWrite_readBack {off : Nat} (h : off ∈ [0x0018, 0x001C, 0x0020, 0x0024, 0x0028, 0x00C0, 0x00C4, 0x00C8,
    0x00CC, 0x00D0, 0x00D4, 0x00D8, 0x00DC, 0x00E4]) (v : Word) : (s.idleWrite off v).windowValue off = v := by
  simp only [List.mem_cons, List.not_mem_nil, or_false] at h
  rcases h with rfl | rfl | rfl | rfl | rfl | rfl | rfl | rfl | rfl | rfl | rfl | rfl | rfl | rfl
  case inr.inr.inr.inr.inr.inr.inr.inr.inr.inr.inr.inr.inr => exact s.idleWrite_shaCntHi_hi v
  all_goals rfl

end State

/-- Settles O57: the reads, then the idle writes, then read-back and the offsets that ignore writes. -/
theorem registersReadBackWhatWasWritten : Obligations.RegistersReadBackWhatWasWritten := by
  refine ⟨fun s => ?reads, fun s v hb => ?writes⟩
  case reads =>
    exact ⟨rfl, rfl, rfl, rfl, rfl, rfl, rfl, s.toNat_windowValue_rsaBits, s.toNat_windowValue_rsaKlen, rfl, rfl,
      rfl, rfl, rfl, rfl, rfl, rfl, s.toNat_windowValue_shaCntLo, s.toNat_windowValue_shaCntHi,
      s.windowValue_shaCtx, fun k _ hi => s.windowValue_rkWord k hi⟩
  case writes =>
    simp only [State.hostWrite_of_idle hb]
    exact ⟨rfl, rfl, rfl, rfl, rfl, rfl, rfl, rfl, rfl, rfl, rfl, rfl, rfl, rfl, rfl, s.idleWrite_shaCntLo v,
      s.idleWrite_shaCntHi v, rfl, fun _ ho => s.idleWrite_readBack ho v, s.idleWrite_shaCntLo_lo v,
      s.idleWrite_shaCntLo_hi v, s.idleWrite_shaCntHi_lo v, s.idleWrite_shaCtx_readBack v, fun off ha =>
        ⟨fun hr => ⟨s.windowValue_reserved hr, s.idleWrite_reserved hr v⟩, fun ho =>
          ho.elim (fun h => s.idleWrite_readOnly h v) fun h => s.idleWrite_rkWord ha h v⟩⟩

end Sys2Proof.Machine
end

section
/-! PROOFS. What a host access does while a command is in flight, and what a read returns (`20_memory.md` R54,
R60, R62, R63, `60_exceptions.md` R140). -/

namespace Sys2Proof.Machine

open Sys2Proof

/-! ### The registers that the host reaches while busy -/

/-- What the map says of the offset `off` at which a register stands, for the registers that a host read sees
while busy (`20_memory.md` R63). -/
def WindowReg.ControlAt (off : Nat) : WindowReg → Prop
  | .id => off = 0x0000
  | .cmd => off = 0x0004
  | .status => off = 0x0008
  | .intEn => off = 0x000C
  | .intStat => off = 0x0010
  | .ctrl => off = 0x002C
  | _ => True

theorem locate_controlAt (off : Nat) : (locate off).ControlAt off := by
  unfold locate
  repeat' refine iteInduction (fun h => ?_) (fun _ => ?_)
  all_goals try exact trivial
  all_goals exact h

theorem locate_eq_intEn {off : Nat} (h : locate off = .intEn) : off = 0x000C := by
  have := locate_controlAt off
  rwa [h] at this

theorem locate_eq_intStat {off : Nat} (h : locate off = .intStat) : off = 0x0010 := by
  have := locate_controlAt off
  rwa [h] at this

theorem locate_eq_ctrl {off : Nat} (h : locate off = .ctrl) : off = 0x002C := by
  have := locate_controlAt off
  rwa [h] at this

theorem locate_readableWhileBusy {off : Nat} : (locate off).readableWhileBusy = true ↔
    off ∈ [0x0000, 0x0004, 0x0008, 0x000C, 0x0010, 0x002C] := by
  constructor
  · have place := locate_controlAt off
    intro readable
    cases hl : locate off with
    | id | cmd | status | intEn | intStat | ctrl =>
        rw [hl] at place
        obtain rfl : off = _ := place
        decide
    | _ =>
        rw [hl] at readable
        exact absurd readable Bool.false_ne_true
  · have all : ∀ o ∈ [0x0000, 0x0004, 0x0008, 0x000C, 0x0010, 0x002C], (locate o).readableWhileBusy = true := by
      decide
    exact all off

/-! ### Writes -/

namespace State

theorem hostWrite_of_busy {s : State} (h : s.busy = true) (off : Nat) (v : Word) :
    s.hostWrite off v = s.busyWrite off v := by
  rw [State.hostWrite, if_pos h]

/-- A write of any other register than INT_EN, INT_STAT and CTRL is dropped and sets OVR (`20_memory.md` R62). -/
theorem busyWrite_dropped (s : State) {off : Nat} (v : Word) (hen : off ≠ 0x000C) (hstat : off ≠ 0x0010)
    (hctrl : off ≠ 0x002C) : s.busyWrite off v = { s with intOvr := true } := by
  unfold State.busyWrite
  cases hl : locate off with
  | intEn => exact absurd (locate_eq_intEn hl) hen
  | intStat => exact absurd (locate_eq_intStat hl) hstat
  | ctrl => exact absurd (locate_eq_ctrl hl) hctrl
  | _ => rfl

/-! ### Reads -/

theorem hostRead_of_free {s : State} {off : Nat} (hb : s.busy = true)
    (h : off ∉ [0x0000, 0x0004, 0x0008, 0x000C, 0x0010, 0x002C]) :
    s.hostRead off = { s with rdata := Config.busyRead s.draws, draws := s.draws + 1 } := by
  have hidden : (locate off).readableWhileBusy = false := by
    rwa [← Bool.not_eq_true, locate_readableWhileBusy]
  rw [State.hostRead, hb, hidden]
  rfl

theorem hostRead_of_value {s : State} {off : Nat}
    (h : s.busy = false ∨ off ∈ [0x0000, 0x0004, 0x0008, 0x000C, 0x0010, 0x002C]) :
    s.hostRead off = { s with rdata := s.windowValue off } := by
  rw [← locate_readableWhileBusy] at h
  unfold State.hostRead
  rcases h with idle | readable
  · rw [idle]
    rfl
  · rw [readable, Bool.not_true, Bool.and_false, if_neg Bool.false_ne_true]

end State

/-- Settles O51. -/
theorem hostWritesWhileIdleAndBusy : Obligations.HostWritesWhileIdleAndBusy := by
  refine ⟨fun s v hb => ?accept, fun s off v hb _ _ hen hstat hctrl => ?dropped, fun s v hb => ?effective⟩
  case accept =>
    rw [State.hostWrite_of_idle hb]
    rfl
  case dropped => rw [State.hostWrite_of_busy hb, s.busyWrite_dropped v hen hstat hctrl]
  case effective =>
    refine ⟨?_, ?_, fun hv => ?_, fun hv => ?_⟩
    · rw [State.hostWrite_of_busy hb]
      rfl
    · rw [State.hostWrite_of_busy hb]
      rfl
    · rw [State.hostWrite_ctrl, if_pos hv]
    · rw [State.hostWrite_ctrl, hv]
      rfl

/-- Settles O52: a read is of one of two kinds, by BUSY and the offset. -/
theorem hostReadsChangeNothing : Obligations.HostReadsChangeNothing := by
  intro s off _ _
  refine ⟨?frame, fun h => ?value, fun hb h => ?free⟩
  case frame =>
    unfold State.hostRead
    split <;> rfl
  case value =>
    rw [State.hostRead_of_value h]
    exact ⟨rfl, rfl⟩
  case free =>
    rw [State.hostRead_of_free hb h]
    exact ⟨rfl, rfl⟩

end Sys2Proof.Machine
end

section
/-! PROOFS. The words of the byte windows (`20_memory.md` R56). -/

namespace Sys2Proof.Machine

open Sys2Proof

/-! ### Words and their lanes -/

theorem toNat_append_byte {n : Nat} (hi : BitVec n) (lo : Byte) :
    (hi ++ lo).toNat = hi.toNat * 2 ^ 8 + lo.toNat := by
  rw [BitVec.toNat_append, Nat.shiftLeft_eq, Nat.mul_comm, Nat.two_pow_add_eq_or_of_lt lo.isLt]

theorem toNat_lanesToWord (b0 b1 b2 b3 : Byte) : (lanesToWord b0 b1 b2 b3).toNat =
    b0.toNat + b1.toNat * 2 ^ 8 + b2.toNat * 2 ^ 16 + b3.toNat * 2 ^ 24 := by
  rw [lanesToWord, toNat_append_byte, toNat_append_byte, toNat_append_byte]
  omega

theorem toNat_wordToLanes_getD (x : Word) {t : Nat} (h : t < 4) :
    ((wordToLanes x).getD t 0).toNat = x.toNat >>> (8 * t) % 256 := by
  interval_cases t <;> exact BitVec.extractLsb'_toNat _ _ _

/-! ### A word of a byte window -/

/-- What stands at a word of a byte window: a word of a nonce or a plain word. -/
theorem locate_byteWindow {off : Nat} (h : inByteWindow off = true) :
    (∃ k, locate off = .nonceWord k off) ∨ locate off = .byteWord off := by
  rw [inByteWindow_iff_offsets] at h
  by_cases h0 : 0x0060 ≤ off ∧ off < 0x006C
  · refine .inl ⟨.s0, ?_⟩
    simp (disch := omega) only [locate, inSpan_iff, Span, Win.gcmIv0, if_neg, if_pos]
  by_cases h1 : 0x0070 ≤ off ∧ off < 0x007C
  · refine .inl ⟨.s1, ?_⟩
    simp (disch := omega) only [locate, inSpan_iff, Span, Win.gcmIv0, Win.gcmIv1, if_neg, if_pos]
  · refine .inr ?_
    simp (disch := omega) only [locate, inSpan_iff, Span, Win.gcmIv0, Win.gcmIv1, inByteWindow_iff_offsets, if_neg,
      if_pos]

namespace State

theorem windowValue_byteWindow (s : State) {off : Nat} (h : inByteWindow off = true) :
    s.windowValue off = s.byteWindowWord off := by
  unfold State.windowValue
  rcases locate_byteWindow h with ⟨k, hl⟩ | hl <;> rw [hl]

/-- An idle write of a word of a byte window stores its four bytes; a word of a nonce clears the slot's NU
(`43_gcm.md` R123). -/
theorem hostWrite_byteWindow {s : State} (hb : s.busy = false) {off : Nat} (h : inByteWindow off = true)
    (x : Word) :
    (∃ k, s.hostWrite off x = (s.writeWindow off (wordToLanes x)).setNu k false) ∨
      s.hostWrite off x = s.writeWindow off (wordToLanes x) := by
  rw [State.hostWrite_of_idle hb, State.idleWrite]
  rcases locate_byteWindow h with ⟨k, hl⟩ | hl
  · exact .inl ⟨k, by rw [hl]⟩
  · exact .inr (by rw [hl])

theorem hostWrite_byteWindow_mem {s : State} (hb : s.busy = false) {off : Nat} (h : inByteWindow off = true)
    (x : Word) : (s.hostWrite off x).mem = Memory.writeBytes s.mem off (wordToLanes x) := by
  rcases State.hostWrite_byteWindow hb h x with ⟨k, ht⟩ | ht <;> rw [ht] <;> rfl

/-- Clearing or setting NU of one slot changes no other part of any slot. -/
theorem slot_setNu (s : State) (j k : Slot) (b : Bool) :
    (s.setNu j b).slot k = { s.slot k with nu := ((s.setNu j b).slot k).nu } := by
  by_cases same : k = j
  · subst same
    rw [State.setNu_eq, State.slot_setSlot_same]
  · rw [State.setNu_eq, State.slot_setSlot_other _ _ same]

end State

/-- Settles O53: everything follows from the bytes that the write stores. -/
theorem byteWindowLanesAreLittleEndian : Obligations.ByteWindowLanesAreLittleEndian := by
  intro s off x hb _ hw
  have mem := State.hostWrite_byteWindow_mem hb hw x
  have lane (t : Nat) (ht : t < 4) :
      (Memory.read (s.hostWrite off x).mem (off + t)).toNat = x.toNat >>> (8 * t) % 256 := by
    rw [mem, Memory.read_writeBytes_inside _ _ (by simpa using ht), toNat_wordToLanes_getD x ht]
  refine ⟨?value, ?readBack, lane, fun a ha => ?otherBytes, ?registers, fun k => ?slots⟩
  case value => rw [s.windowValue_byteWindow hw, State.byteWindowWord, toNat_lanesToWord]
  case readBack =>
    have l0 := lane 0 (by decide)
    have l1 := lane 1 (by decide)
    have l2 := lane 2 (by decide)
    have l3 := lane 3 (by decide)
    apply BitVec.eq_of_toNat_eq
    simp only [Nat.shiftRight_eq_div_pow, Nat.add_zero] at l0 l1 l2 l3
    rw [State.windowValue_byteWindow _ hw, State.byteWindowWord, toNat_lanesToWord, l0, l1, l2, l3]
    omega
  case otherBytes =>
    rw [mem]
    apply Memory.read_writeBytes_outside
    rw [wordToLanes_length]
    unfold Span at ha
    omega
  case registers => rcases State.hostWrite_byteWindow hb hw x with ⟨k, ht⟩ | ht <;> rw [ht] <;> rfl
  case slots =>
    rcases State.hostWrite_byteWindow hb hw x with ⟨j, ht⟩ | ht
    · rw [ht]
      exact State.slot_setNu _ j k false
    · rw [ht]
      rfl

end Sys2Proof.Machine
end

section
/-! PROOFS. Which steps are refused: the undefined host accesses and no others (`20_memory.md` R55, R67). -/

namespace Sys2Proof.Machine

open Sys2Proof

/-! ### The engine refuses nothing -/

theorem exec_completes (i : Instr) (s : State) : ∃ t, exec i s = .next t := by
  rcases exec_ends i s with ⟨e, -, he⟩ | ⟨u, -, hc⟩
  · exact ⟨_, he⟩
  · exact ⟨_, hc⟩

theorem runCommand_completes (s : State) : ∃ t, runCommand s = .next t := by
  cases hd : decode s.cmd with
  | ok i =>
      rw [runCommand_of_decode hd]
      exact exec_completes i s
  | error e => exact ⟨_, runCommand_of_illegal hd⟩

theorem engineTurn_completes (s : State) : ∃ t, engineTurn s = .next t := by
  unfold engineTurn
  split
  · exact runCommand_completes s
  · exact ⟨s, rfl⟩

/-! ### Host accesses -/

theorem AccessShape.wordWide_iff {a : AccessShape} : a.wordWide = true ↔ a.width = .word := beq_iff_eq

theorem AccessShape.aligned_iff {a : AccessShape} : a.aligned = true ↔ a.offset % 4 = 0 := beq_iff_eq

theorem AccessShape.wellFormed_iff {a : AccessShape} :
    a.wellFormed = true ↔ a.inWindow = true ∧ a.width = .word ∧ a.offset % 4 = 0 := by
  rw [AccessShape.wellFormed, Bool.and_eq_true, Bool.and_eq_true, AccessShape.wordWide_iff, AccessShape.aligned_iff]
  tauto

theorem hostAccess_outside {a : HostAccess} (s : State) (h : a.shape.inWindow = false) :
    hostAccess a s = .refused .outsideWindow := by
  rw [hostAccess, h]
  rfl

theorem hostAccess_undefined {a : HostAccess} (s : State) (hin : a.shape.inWindow = true)
    (h : a.shape.width ≠ .word ∨ a.shape.offset % 4 ≠ 0) : hostAccess a s = .refused .undefinedAccess := by
  have undefined : (a.shape.wordWide && a.shape.aligned) = false := by
    rw [← Bool.not_eq_true, Bool.and_eq_true, AccessShape.wordWide_iff, AccessShape.aligned_iff]
    tauto
  rw [hostAccess, hin, undefined]
  rfl

theorem step_of_host {s : State} {a : HostAccess} {rest : List Input} (h : s.inputs = .host a :: rest) :
    step s = hostAccess a { s with inputs := rest } := by
  rw [step, nextStep, h]

/-- Settles O58, over the next item of the environment. -/
theorem onlyUndefinedAccessesAreRefused : Obligations.OnlyUndefinedAccessesAreRefused := by
  refine ⟨fun s defined => ?_, fun s a rest hi => ?_⟩
  · cases hi : s.inputs with
    | nil =>
        rw [step, nextStep, hi]
        exact engineTurn_completes s
    | cons item rest =>
        cases item with
        | engine =>
            rw [step, nextStep, hi]
            exact engineTurn_completes _
        | host a =>
            have wf : a.shape.wellFormed = true := defined a (hi ▸ List.mem_cons_self)
            exact ⟨_, (step_of_host hi).trans (hostAccess_of_wellFormed _ wf)⟩
        | hardReset =>
            rw [step, nextStep, hi]
            exact ⟨_, rfl⟩
  · rw [step_of_host hi]
    exact ⟨hostAccess_outside _, hostAccess_undefined _, fun hin hw ha =>
      hostAccess_of_wellFormed _ (AccessShape.wellFormed_iff.mpr ⟨hin, hw, ha⟩)⟩

end Sys2Proof.Machine
end

section
/-! PROOFS. No command reads INT_EN or INT_STAT, the only registers that a host write short of a soft reset can
change while a command is in flight (`20_memory.md` R62, R66). -/

namespace Sys2Proof.Machine

open Sys2Proof

/-- `s` with INT_EN and INT_STAT as they are in `w`. -/
def State.withInterrupts (s w : State) : State :=
  { s with doneEn := w.doneEn, ovrEn := w.ovrEn, intDone := w.intDone, intOvr := w.intOvr }

/-- `s` with INT_EN and OVR as they are in `w`. -/
def State.withEnablesAndOvr (s w : State) : State :=
  { s with doneEn := w.doneEn, ovrEn := w.ovrEn, intOvr := w.intOvr }

/-- While busy, a host write short of a soft reset changes INT_EN and INT_STAT only (`20_memory.md` R62). -/
theorem State.hostWrite_busy_frame {s : State} (hb : s.busy = true) {off : Nat} {v : Word}
    (hr : off = 0x002C → v.getLsbD 0 = false) :
    s.hostWrite off v = s.withInterrupts (s.hostWrite off v) := by
  by_cases hctrl : off = 0x002C
  · rw [hctrl, State.hostWrite_ctrl, hr hctrl]
    rfl
  · rw [State.hostWrite_of_busy hb, State.busyWrite]
    cases hl : locate off with
    | ctrl => exact absurd (locate_eq_ctrl hl) hctrl
    | _ => rfl

/-! ### Outcomes that are the same but for INT_EN and OVR -/

/-- Where `o` answers a state, `p` answers the same with INT_EN and OVR of `w`. -/
def SameOutcome (w : State) (o p : Result) : Prop :=
  ∀ t, o = .next t → p = .next (t.withEnablesAndOvr w)

namespace SameOutcome

variable {w s : State} {e : ErrCode} {o p o' p' : Result} {c : Prop} [Decidable c]

/-- A completion sets DONE whatever it was. -/
theorem fail : SameOutcome w (s.fail e) ((s.withInterrupts w).fail e) := by
  intro t h
  rw [← Host.Outcome.next.inj h]
  rfl

theorem complete : SameOutcome w s.complete (s.withInterrupts w).complete := fail

theorem ite (ho : SameOutcome w o o') (hp : SameOutcome w p p') :
    SameOutcome w (if c then o else p) (if c then o' else p') := by
  split
  · exact ho
  · exact hp

/-- The streaming context written back, whatever it is. -/
theorem completeSha {x : ShaContext} {b : Bool} :
    SameOutcome w (s.setShaContext x b).complete ((s.withInterrupts w).setShaContext x b).complete :=
  complete

/-- A check of a command, and the rest of it. -/
theorem check (h : SameOutcome w o o') :
    SameOutcome w (if c then s.fail e else o) (if c then (s.withInterrupts w).fail e else o') :=
  fail.ite h

/-- The checks of an AES command at once, and the rest of it. -/
theorem checks (x : Option ErrCode) (h : SameOutcome w o o') :
    SameOutcome w (match x with | some e => s.fail e | none => o)
      (match x with | some e => (s.withInterrupts w).fail e | none => o') := by
  cases x with
  | none => exact h
  | some e => exact fail

end SameOutcome

/-- Command by command, along its checks: every operand and every result is the same in both states. -/
theorem exec_sameOutcome (i : Instr) (s w : State) : SameOutcome w (exec i s) (exec i (s.withInterrupts w)) := by
  cases i with
  | nop => exact .complete
  | bnFromBytes rd => exact .check (.check .complete)
  | bnToBytes rs1 => exact .check (.check (.check .complete))
  | bnAdd rd rs1 rs2 =>
      unfold exec execBnAdd
      exact .check .complete
  | bnSub rd rs1 rs2 => exact .check .complete
  | bnMul rd rs1 rs2 =>
      unfold exec execBnMul
      exact .check .complete
  | bnShl rd rs1 => exact .ite .complete (.check .complete)
  | bnShr rd rs1 => exact .complete
  | bnCmp rs1 rs2 => exact .complete
  | bnMod rd rs1 rm => exact .check .complete
  | bnModMul rd rs1 rs2 rm => exact .check .complete
  | bnModExp rd rs1 rs2 rm => exact .check .complete
  | bnBitLen rs1 => exact .complete
  | bnBitTest rs1 => exact .complete
  | rsaSetKey rs2 rm => exact .check .complete
  | rsaEnc => exact .check (.check (.check (.check .complete)))
  | rsaVerify => exact .check (.check (.check .complete))
  | aesKeyExp k => exact .complete
  | aesEncBlk k => exact .checks (s.blockCheck k) .complete
  | aesDecBlk k => exact .checks (s.blockCheck k) .complete
  | aesCbcEnc k => exact .checks (s.cbcCheck k) .complete
  | aesCbcDec k => exact .checks (s.cbcCheck k) .complete
  | gcmEnc k => exact .check (.check (.check (.check .complete)))
  | gcmDec k => exact .check (.check (.check (.check .complete)))
  | shaInit => exact .completeSha
  | shaUpdate => exact .check (.check .completeSha)
  | shaFinal => exact .check .completeSha
  | shaOneShot => exact .check .complete
  | hmac => exact .check (.check .complete)

theorem runCommand_sameOutcome (s w : State) :
    SameOutcome w (runCommand s) (runCommand (s.withInterrupts w)) := by
  cases hd : decode s.cmd with
  | ok i =>
      rw [runCommand_of_decode hd, runCommand_of_decode (s := s.withInterrupts w) hd]
      exact exec_sameOutcome i s w
  | error e =>
      rw [runCommand_of_illegal hd, runCommand_of_illegal (s := s.withInterrupts w) hd]
      exact .fail

/-- Settles O60: the write changes INT_EN and INT_STAT at most, and no command reads them. -/
theorem hostCannotDisturbACommand : Obligations.HostCannotDisturbACommand := by
  intro s t off v hb _ _ hr ht
  rw [State.hostWrite_busy_frame hb hr]
  exact runCommand_sameOutcome s _ t ht

end Sys2Proof.Machine
end

section
/-! PROOFS. Command words: what the decoder reads of a word, and which words it refuses (`30_encoding.md` R74 to
R80). -/

namespace Sys2Proof

open Sys2Proof.Machine

/-! ### The decoder, case by case -/

theorem decode_of_reserved {c : Word} (h : c.extractLsb' 17 15 ≠ 0) : decode c = .error .reservedBits :=
  if_pos h

theorem decode_of_toInstr {c : Word} {i : Instr} (h : c.extractLsb' 17 15 = 0)
    (hi : (CommandWord.ofWord c).toInstr = some i) : decode c = .ok i := by
  have reservedZero : (CommandWord.ofWord c).reserved = 0 := h
  simp [decode, reservedZero, hi]

theorem decode_of_unassigned {c : Word} (h : c.extractLsb' 17 15 = 0)
    (hn : (CommandWord.ofWord c).toInstr = none) : decode c = .error .unassignedOpcode := by
  have reservedZero : (CommandWord.ofWord c).reserved = 0 := h
  simp [decode, reservedZero, hn]

theorem decode_eq_ok_iff {c : Word} {i : Instr} :
    decode c = .ok i ↔ c.extractLsb' 17 15 = 0 ∧ (CommandWord.ofWord c).toInstr = some i := by
  by_cases h : c.extractLsb' 17 15 = 0
  · cases hi : (CommandWord.ofWord c).toInstr with
    | none => simp [decode_of_unassigned h hi]
    | some j => simp [decode_of_toInstr h hi, h]
  · simp only [decode_of_reserved h, h, false_and, reduceCtorEq]

theorem decode_isError_iff {c : Word} :
    (∃ e, decode c = .error e) ↔ c.extractLsb' 17 15 ≠ 0 ∨ (CommandWord.ofWord c).toInstr = none := by
  by_cases h : c.extractLsb' 17 15 = 0
  · cases hi : (CommandWord.ofWord c).toInstr with
    | none => simp [decode_of_unassigned h hi]
    | some j => simp [decode_of_toInstr h hi, h]
  · exact iff_of_true ⟨_, decode_of_reserved h⟩ (.inl h)

/-! ### Decoding after encoding -/

/-- A command's canonical fields stand for the command (`30_encoding.md` R78): its row of `toInstr` is picked by its
opcode, and each operand is the one its field value names. -/
theorem Instr.toInstr_fields (i : Instr) : i.fields.toInstr = some i := by
  cases i <;> simp [Instr.fields, Instr.opcode, CommandWord.toInstr]

theorem Instr.fields_reserved (i : Instr) : i.fields.reserved = 0 := by cases i <;> rfl

/-- Settles O1: splitting the word gives back the command's fields, and these stand for the command. -/
theorem decodeOfEncodeIsTheCommand : Obligations.DecodeOfEncodeIsTheCommand := by
  intro i
  have fields : CommandWord.ofWord (encode i) = i.fields := CommandWord.ofWord_toWord i.fields
  have reservedZero : (encode i).extractLsb' 17 15 = 0 :=
    (congrArg CommandWord.reserved fields).trans i.fields_reserved
  exact decode_of_toInstr reservedZero (by rw [fields, i.toInstr_fields])

/-! ### The opcodes -/

theorem CommandWord.op_of_toInstr {f : CommandWord} {i : Instr} (h : f.toInstr = some i) : f.op = i.opcode := by
  apply BitVec.eq_of_toNat_eq
  unfold CommandWord.toInstr at h
  split at h <;> cases h <;> assumption

/-- The gaps between the opcodes of `30_encoding.md` R78, as R80 lists them. -/
def UnassignedOpcode (op : Nat) : Prop :=
  (0x01 ≤ op ∧ op ≤ 0x0F) ∨ (0x1D ≤ op ∧ op ≤ 0x1F) ∨ (0x23 ≤ op ∧ op ≤ 0x2F) ∨
    (0x37 ≤ op ∧ op ≤ 0x3F) ∨ (0x45 ≤ op ∧ op ≤ 0xFF)

theorem Instr.opcode_assigned (i : Instr) : ¬ UnassignedOpcode i.opcode.toNat := by
  cases i <;> simp [UnassignedOpcode, Instr.opcode]

theorem CommandWord.toInstr_eq_none_iff {f : CommandWord} : f.toInstr = none ↔ UnassignedOpcode f.op.toNat := by
  constructor
  · intro h
    have bound : f.op.toNat < 256 := f.op.isLt
    unfold CommandWord.toInstr at h
    unfold UnassignedOpcode
    split at h
    case h_30 =>
      simp only [imp_false] at *
      omega
    all_goals cases h
  · intro gap
    cases h : f.toInstr with
    | none => rfl
    | some i =>
        rw [CommandWord.op_of_toInstr h] at gap
        exact absurd gap i.opcode_assigned

/-- Settles O3: the opcodes `toInstr` has no row for are the gaps R80 lists. -/
theorem illegalWordsCompleteWithEIllegal : Obligations.IllegalWordsCompleteWithEIllegal := by
  refine ⟨fun c => ?_, fun s c idle ⟨e, illegal⟩ => ?_⟩
  · rw [decode_isError_iff, CommandWord.toInstr_eq_none_iff]
    rfl
  · have accepted : s.hostWrite 0x0004 c = { s with cmd := c, busy := true } := State.hostWrite_of_idle idle 0x0004 c
    refine ⟨accepted, ?_⟩
    rw [accepted]
    exact runCommand_of_illegal (s := { s with cmd := c, busy := true }) illegal

/-- Settles O4, by running the decoder on each word. -/
theorem sampleWordsDecodeAsTheSpecSays : Obligations.SampleWordsDecodeAsTheSpecSays :=
  ⟨rfl, rfl, rfl, rfl, rfl, rfl, rfl, rfl, rfl, rfl, rfl, rfl, rfl⟩

/-! ### The marked bits of a word -/

/-- Joining the fields of a word gives the word back: every bit lies in a field (`30_encoding.md` R74). -/
@[simp] theorem CommandWord.toWord_ofWord (c : Word) : (CommandWord.ofWord c).toWord = c := by
  apply BitVec.eq_of_getLsbD_eq
  intro i hi
  simp only [CommandWord.ofWord, CommandWord.toWord]
  interval_cases i <;> simp

theorem CommandWord.ofWord_eq_iff {c : Word} {f : CommandWord} : CommandWord.ofWord c = f ↔ c = f.toWord := by
  constructor
  · rintro rfl
    exact (CommandWord.toWord_ofWord c).symm
  · rintro rfl
    exact CommandWord.ofWord_toWord f

@[simp] theorem BnReg.toField_ofField (f : BitVec 2) : (BnReg.ofField f).toField = f := by
  revert f
  decide

@[simp] theorem Slot.toField_ofField (f : BitVec 1) : (Slot.ofField f).toField = f := by
  revert f
  decide

/-- The bits of `f` that `m` keeps, field by field. -/
def CommandWord.mask (f m : CommandWord) : CommandWord where
  op := f.op &&& m.op
  rd := f.rd &&& m.rd
  rs1 := f.rs1 &&& m.rs1
  rs2 := f.rs2 &&& m.rs2
  rm := f.rm &&& m.rm
  slot := f.slot &&& m.slot
  reserved := f.reserved &&& m.reserved

theorem CommandWord.ofWord_and (c m : Word) :
    CommandWord.ofWord (c &&& m) = (CommandWord.ofWord c).mask (CommandWord.ofWord m) := by
  simp only [CommandWord.ofWord, CommandWord.mask, BitVec.extractLsb'_and]

/-- The fields of `f` that the opcode's row of `i` marks as read, the others 0 (`30_encoding.md` R78). -/
def Instr.marked (i : Instr) (f : CommandWord) : CommandWord := f.mask (CommandWord.ofWord (readMask i))

/-- A mask of ones keeps the whole field: the masks of the fields as `simp` computes them from `readMask`. -/
theorem and_fieldOnes :
    (∀ x : BitVec 8, x &&& 255#8 = x) ∧ (∀ x : BitVec 2, x &&& 3#2 = x) ∧ ∀ x : BitVec 1, x &&& 1#1 = x :=
  ⟨fun _ => BitVec.and_allOnes, fun _ => BitVec.and_allOnes, fun _ => BitVec.and_allOnes⟩

theorem Instr.marked_op (i : Instr) (f : CommandWord) : (i.marked f).op = f.op := by
  cases i <;> simp [Instr.marked, CommandWord.mask, CommandWord.ofWord, readMask, and_fieldOnes]

/-- The command a field split stands for is read from the marked fields alone (`30_encoding.md` R76). -/
theorem Instr.toInstr_marked {i : Instr} {f : CommandWord} (h : f.op = i.opcode) :
    (i.marked f).toInstr = f.toInstr := by
  cases i <;>
    simp [CommandWord.toInstr, h, Instr.opcode, Instr.marked, CommandWord.mask, CommandWord.ofWord, readMask,
      and_fieldOnes]

/-- The marked fields hold the opcode and the operands, and nothing else. -/
theorem Instr.marked_of_toInstr {i : Instr} {f : CommandWord} (h : f.toInstr = some i) : i.marked f = i.fields := by
  have hop := CommandWord.op_of_toInstr h
  unfold CommandWord.toInstr at h
  split at h <;> cases h <;>
    simp [hop, Instr.opcode, Instr.fields, Instr.marked, CommandWord.mask, CommandWord.ofWord, readMask,
      and_fieldOnes]

theorem CommandWord.toInstr_eq_some_iff {f : CommandWord} {i : Instr} :
    f.toInstr = some i ↔ i.marked f = i.fields := by
  refine ⟨Instr.marked_of_toInstr, fun h => ?_⟩
  have hop : f.op = i.opcode := by
    rw [← i.marked_op f, h]
    exact CommandWord.op_of_toInstr i.toInstr_fields
  rw [← Instr.toInstr_marked hop, h, i.toInstr_fields]

/-- The decoder at the level of bits: a word is a command's exactly when its marked bits are those of the
command's canonical word and bits 31:17 are 0. -/
theorem decode_eq_ok_iff_and_readMask {c : Word} {i : Instr} :
    decode c = .ok i ↔ c.extractLsb' 17 15 = 0 ∧ c &&& readMask i = encode i := by
  rw [decode_eq_ok_iff, CommandWord.toInstr_eq_some_iff, Instr.marked, ← CommandWord.ofWord_and,
    CommandWord.ofWord_eq_iff, encode]

/-- Settles O2: which command a word is depends on its marked bits alone. -/
theorem decodeReadsExactlyTheMarkedFields : Obligations.DecodeReadsExactlyTheMarkedFields := by
  intro c i h
  obtain ⟨-, marked⟩ := decode_eq_ok_iff_and_readMask.mp h
  refine ⟨marked.symm, fun d reservedZero agree => ?_⟩
  have hd : decode d = .ok i := decode_eq_ok_iff_and_readMask.mpr ⟨reservedZero, agree.trans marked⟩
  exact ⟨hd, fun _ => runCommand_of_decode hd⟩

end Sys2Proof
end

section
/-! PROOFS. How the bignum commands end, and the operand of BN_FROMBYTES and BN_TOBYTES as a number
(`40_bignum.md` R83, R86, R87). -/

namespace Sys2Proof.Machine

open Sys2Proof

/-! ### A command that writes one register, and one that writes DATA -/

/-- Completing after one bignum write changes no other register and no memory. -/
theorem State.frameBn_writeBn (s : State) (rd : BnReg) (v : Nat) : FrameBn rd s ((s.writeBn rd v).finish .ok) :=
  ⟨rfl, fun _ other => s.readBn_writeBn_other v other, fun _ => rfl⟩

/-- A command that ends by writing a value that fits gives that value, and writes nothing else. -/
theorem completes_with_bn {i : Instr} {s : State} {rd : BnReg} {v : Nat} (fits : v < 2 ^ 4096)
    (ends : exec i s = (s.writeBn rd v).complete) :
    ∃ t, exec i s = .next t ∧ FrameBn rd s t ∧ t.readBn rd = v :=
  ⟨_, ends, s.frameBn_writeBn rd v, s.readBn_writeBn_same rd (by simpa only [Config.bnBits] using fits)⟩

/-- A bignum register is below 2^4096, with the number written out (`40_bignum.md` R83). -/
theorem State.readBn_lt_two_pow (s : State) (r : BnReg) : s.readBn r < 2 ^ 4096 := by
  simpa only [Config.bnBits] using s.readBn_lt r

/-- Completing after one store to DATA changes no byte outside the store. -/
theorem State.frameMem_dataWrite (s : State) (off : Nat) (bs : List Byte) :
    FrameMem (Span (Win.data + off) bs.length) s ((s.dataWrite off bs).finish .ok) :=
  ⟨rfl, fun _ outside => Memory.read_writeBytes_outside _ _ (by unfold Span at outside; omega)⟩

/-! ### The checks of the DATA operand -/

theorem not_inRange_iff {off n : Nat} : (!inRange off n) = true ↔ 16384 < off + n := by
  rw [Bool.not_eq_true', ← Bool.not_eq_true, inRange_eq_true, not_le]

/-- The first check of a command on the DATA operand, where the operand runs past DATA. -/
theorem State.rangeCheck_fails {s : State} (o : Result) (h : 16384 < s.off + s.len) :
    (if !inRange s.off s.len then s.fail .range else o) = s.fail .range :=
  if_pos (not_inRange_iff.mpr h)

/-- The second check of the two byte commands, where the operand is too long for a register. -/
theorem State.capacityCheck_fails {s : State} (o : Result) (hr : s.off + s.len ≤ 16384) (h : 512 < s.len) :
    (if !inRange s.off s.len then s.fail .range
      else if s.len > Config.bnBytes then s.fail .capacity else o) = s.fail .capacity :=
  (if_neg (mt not_inRange_iff.mp hr.not_gt)).trans (if_pos h)

/-! ### `from_bytes` as a sum, `to_bytes` byte by byte (R14) -/

theorem fromBytes_eq_sum (s : List Byte) :
    fromBytes s = ∑ j ∈ Finset.range s.length, (s.getD j 0).toNat * 256 ^ (s.length - 1 - j) := by
  induction s using List.reverseRecOn with
  | nil => rfl
  | append_singleton s b ih =>
      have one_place_up : ∀ j ∈ Finset.range s.length,
          ((s ++ [b]).getD j 0).toNat * 256 ^ (s.length + 1 - 1 - j) =
            (s.getD j 0).toNat * 256 ^ (s.length - 1 - j) * 256 := by
        intro j hj
        have hj : j < s.length := Finset.mem_range.mp hj
        rw [List.getD_append _ _ _ _ hj, show s.length + 1 - 1 - j = s.length - 1 - j + 1 by omega, pow_succ,
          Nat.mul_assoc]
      rw [fromBytes_concat, ih, List.length_append, List.length_singleton, Finset.sum_range_succ,
        Finset.sum_congr rfl one_place_up, Finset.sum_mul]
      simp

theorem toNat_toBytes_getD (v : Nat) {n j : Nat} (h : j < n) :
    ((toBytes v n).getD j 0).toNat = v / 256 ^ (n - 1 - j) % 256 := by
  have power : 2 ^ (8 * (n - 1 - j)) = 256 ^ (n - 1 - j) := pow_mul 2 8 _
  simp [toBytes, List.getD_eq_getElem?_getD, h, Nat.shiftRight_eq_div_pow, power]

/-- The number the DATA operand stands for, in the bytes of the memory. -/
theorem State.fromBytes_operand (s : State) (n : Nat) :
    fromBytes (s.operand n) =
      ∑ j ∈ Finset.range n, (Memory.read s.mem (Win.data + s.off + j)).toNat * 256 ^ (n - 1 - j) := by
  rw [fromBytes_eq_sum, State.operand_length]
  refine Finset.sum_congr rfl fun j hj => ?_
  have byte : (s.operand n).getD j 0 = Memory.read s.mem (Win.data + s.off + j) :=
    Memory.readBytes_getD _ _ (Finset.mem_range.mp hj)
  rw [byte]

/-- Settles O14. -/
theorem fromBytesGivesTheBigEndianValue : Obligations.FromBytesGivesTheBigEndianValue := by
  intro rd s
  refine ⟨State.rangeCheck_fails _, State.capacityCheck_fails _, fun hr hc => ?_⟩
  have fits : fromBytes (s.operand s.len) < 2 ^ 4096 := by
    simpa only [Config.bnBits] using fromBytes_lt_bignum (by rwa [State.operand_length])
  rw [← State.fromBytes_operand]
  exact completes_with_bn fits (exec_bnFromBytes_of_fits rd hr hc)

theorem exec_bnToBytes_of_overflow (rs1 : BnReg) {s : State} (hr : s.off + s.len ≤ 16384) (hc : s.len ≤ 512)
    (hv : 256 ^ s.len ≤ s.readBn rs1) : exec (.bnToBytes rs1) s = s.fail .overflow :=
  calc exec (.bnToBytes rs1) s
      = if s.len > Config.bnBytes then s.fail .capacity
        else if s.readBn rs1 ≥ 256 ^ s.len then s.fail .overflow
        else (s.dataWrite s.off (toBytes (s.readBn rs1) s.len)).complete := if_neg (mt not_inRange_iff.mp hr.not_gt)
    _ = s.fail .overflow := (if_neg hc.not_gt).trans (if_pos hv)

/-- Settles O15. -/
theorem toBytesStoresThePaddedBytes : Obligations.ToBytesStoresThePaddedBytes := by
  intro rs1 s
  refine ⟨State.rangeCheck_fails _, State.capacityCheck_fails _, exec_bnToBytes_of_overflow rs1,
    fun hr hc hv => ⟨_, exec_bnToBytes_of_fits rs1 hr hc hv, ?_, fun j hj => ?_⟩⟩
  · have frame := s.frameMem_dataWrite s.off (toBytes (s.readBn rs1) s.len)
    rwa [toBytes_length] at frame
  · have stored : Memory.read (s.dataWrite s.off (toBytes (s.readBn rs1) s.len)).mem (Win.data + s.off + j) =
        (toBytes (s.readBn rs1) s.len).getD j 0 :=
      Memory.read_writeBytes_inside _ _ (by rwa [toBytes_length])
    rw [State.finish_mem, stored, toNat_toBytes_getD _ hj]

end Sys2Proof.Machine
end

section
/-! PROOFS. Sums, differences, products and comparison of bignum registers (`40_bignum.md` R88 to R90, R93). -/

namespace Sys2Proof.Machine

open Sys2Proof

/-! ### BN_ADD, BN_SUB and BN_MUL, by their test -/

theorem exec_bnAdd_of_overflow (rd rs1 rs2 : BnReg) {s : State} (h : 2 ^ 4096 ≤ s.readBn rs1 + s.readBn rs2) :
    exec (.bnAdd rd rs1 rs2) s = s.fail .overflow := by
  simp only [exec, execBnAdd, Config.bnBits, ge_iff_le, if_pos h]

theorem exec_bnAdd_of_fits (rd rs1 rs2 : BnReg) {s : State} (h : s.readBn rs1 + s.readBn rs2 < 2 ^ 4096) :
    exec (.bnAdd rd rs1 rs2) s = (s.writeBn rd (s.readBn rs1 + s.readBn rs2)).complete := by
  simp only [exec, execBnAdd, Config.bnBits, if_neg h.not_ge]

theorem exec_bnSub_of_underflow (rd rs1 rs2 : BnReg) {s : State} (h : s.readBn rs1 < s.readBn rs2) :
    exec (.bnSub rd rs1 rs2) s = s.fail .underflow :=
  if_pos h

theorem exec_bnSub_of_le (rd rs1 rs2 : BnReg) {s : State} (h : s.readBn rs2 ≤ s.readBn rs1) :
    exec (.bnSub rd rs1 rs2) s = (s.writeBn rd (s.readBn rs1 - s.readBn rs2)).complete :=
  if_neg h.not_gt

theorem exec_bnMul_of_overflow (rd rs1 rs2 : BnReg) {s : State} (h : 2 ^ 4096 ≤ s.readBn rs1 * s.readBn rs2) :
    exec (.bnMul rd rs1 rs2) s = s.fail .overflow := by
  simp only [exec, execBnMul, Config.bnBits, ge_iff_le, if_pos h]

theorem exec_bnMul_of_fits (rd rs1 rs2 : BnReg) {s : State} (h : s.readBn rs1 * s.readBn rs2 < 2 ^ 4096) :
    exec (.bnMul rd rs1 rs2) s = (s.writeBn rd (s.readBn rs1 * s.readBn rs2)).complete := by
  simp only [exec, execBnMul, Config.bnBits, if_neg h.not_ge]

/-- Settles O17. -/
theorem addSubMulAreExactOrFail : Obligations.AddSubMulAreExactOrFail := by
  intro rd rs1 rs2 s
  have difference_fits : s.readBn rs1 - s.readBn rs2 < 2 ^ 4096 :=
    (Nat.sub_le _ _).trans_lt (s.readBn_lt_two_pow rs1)
  refine ⟨exec_bnAdd_of_overflow rd rs1 rs2, fun h => completes_with_bn h (exec_bnAdd_of_fits rd rs1 rs2 h),
    exec_bnSub_of_underflow rd rs1 rs2, fun h => ?_,
    exec_bnMul_of_overflow rd rs1 rs2, fun h => completes_with_bn h (exec_bnMul_of_fits rd rs1 rs2 h)⟩
  obtain ⟨t, ends, frame, value⟩ := completes_with_bn difference_fits (exec_bnSub_of_le rd rs1 rs2 h)
  exact ⟨t, ends, frame, by rw [value, Nat.sub_add_cancel h]⟩

/-! ### BN_CMP -/

/-- Bits 3:2 of STATUS are the code of the flag (`10_state.md` R25). -/
theorem State.windowValue_status_cmp (s : State) : (s.windowValue 0x0008).extractLsb' 2 2 = s.cmp.code := by
  obtain ⟨-, -, -, -, -, -, -, -, -, -, cmp, -⟩ :=
    status_layout s.slots.s1.nu s.slots.s0.nu s.rsaKv s.slots.s1.kv s.slots.s0.kv s.shaValid s.vok s.busy
      s.err.code s.cmp.code
  exact cmp

theorem cmpFlag_of_eq {a b : Nat} (h : a = b) : cmpFlag a b = .equal := if_pos h

theorem cmpFlag_of_lt {a b : Nat} (h : a < b) : cmpFlag a b = .less := (if_neg h.ne).trans (if_pos h)

theorem cmpFlag_of_gt {a b : Nat} (h : b < a) : cmpFlag a b = .greater := (if_neg h.ne').trans (if_neg h.not_gt)

/-- Settles O20. -/
theorem cmpTellsTheOrder : Obligations.CmpTellsTheOrder := by
  intro rs1 rs2 s
  have shown (c : CmpFlag) (h : cmpFlag (s.readBn rs1) (s.readBn rs2) = c) :
      (((s.setCmp (cmpFlag (s.readBn rs1) (s.readBn rs2))).finish .ok).windowValue 0x0008).extractLsb' 2 2 =
        c.code := by
    rw [State.windowValue_status_cmp, State.finish_cmp, h]
    rfl
  exact ⟨_, rfl, rfl, fun h => shown .equal (cmpFlag_of_eq h), fun h => shown .less (cmpFlag_of_lt h),
    fun h => shown .greater (cmpFlag_of_gt h)⟩

end Sys2Proof.Machine
end

section
/-! PROOFS. Bit lengths, and the commands that shift (`00_scope.md` R14, `40_bignum.md` R91, R92, R94, R95). -/

namespace Sys2Proof.Machine

open Sys2Proof

/-! ### The bit length -/

/-- The bit length is the least `n` with `v < 2^n`. -/
theorem bitLength_le_iff {v n : Nat} : bitLength v ≤ n ↔ v < 2 ^ n := by
  refine ⟨fun h => ?_, bitLength_le⟩
  unfold bitLength at h
  split at h
  · next hv => rw [hv]; exact Nat.two_pow_pos n
  · next hv => exact (Nat.log2_lt hv).mp h

theorem lt_bitLength_iff {v n : Nat} : n < bitLength v ↔ 2 ^ n ≤ v := by
  rw [← not_le, bitLength_le_iff, not_lt]

theorem bitLength_eq_size (v : Nat) : bitLength v = v.size :=
  eq_of_forall_ge_iff fun _ => bitLength_le_iff.trans Nat.size_le.symm

/-- Shifting a nonzero number left by `n` makes it `n` bits longer. -/
theorem bitLength_mul_two_pow {a : Nat} (h : a ≠ 0) (n : Nat) : bitLength (a * 2 ^ n) = bitLength a + n := by
  rw [bitLength_eq_size, bitLength_eq_size, ← Nat.shiftLeft_eq, Nat.size_shiftLeft h]

/-- The test of R91's pseudocode is the test of its corner case. -/
theorem shl_overflows_iff {a n k : Nat} : 2 ^ k ≤ a * 2 ^ n ↔ a ≠ 0 ∧ k < bitLength a + n := by
  by_cases ha : a = 0
  · simp [ha]
  · rw [← lt_bitLength_iff, bitLength_mul_two_pow ha, and_iff_right ha]

/-! ### BN_SHL and BN_SHR -/

theorem exec_bnShl_of_overflow (rd rs1 : BnReg) {s : State} (h : 2 ^ 4096 ≤ s.readBn rs1 * 2 ^ s.shamt) :
    exec (.bnShl rd rs1) s = s.fail .overflow := by
  obtain ⟨nonzero, long⟩ := shl_overflows_iff.mp h
  simp only [exec, execBnShl, Config.bnBits, if_neg nonzero, gt_iff_lt, if_pos long]

theorem exec_bnShl_of_fits (rd rs1 : BnReg) {s : State} (h : s.readBn rs1 * 2 ^ s.shamt < 2 ^ 4096) :
    exec (.bnShl rd rs1) s = (s.writeBn rd (s.readBn rs1 * 2 ^ s.shamt)).complete := by
  by_cases zero : s.readBn rs1 = 0
  · simp only [exec, execBnShl, zero, if_true, Nat.zero_mul]
  · have short : ¬ 4096 < bitLength (s.readBn rs1) + s.shamt := fun long =>
      h.not_ge (shl_overflows_iff.mpr ⟨zero, long⟩)
    simp only [exec, execBnShl, Config.bnBits, if_neg zero, gt_iff_lt, if_neg short]

/-- Settles O18. -/
theorem shlMultipliesOrOverflows : Obligations.ShlMultipliesOrOverflows := fun rd rs1 _ =>
  ⟨exec_bnShl_of_overflow rd rs1, fun h => completes_with_bn h (exec_bnShl_of_fits rd rs1 h), shl_overflows_iff⟩

/-- A register has no bit from position 4096 on (`40_bignum.md` R83). -/
theorem State.readBn_div_eq_zero (s : State) (r : BnReg) {n : Nat} (h : 4096 ≤ n) : s.readBn r / 2 ^ n = 0 :=
  Nat.div_eq_of_lt ((s.readBn_lt_two_pow r).trans_le (pow_le_pow_right₀ one_le_two h))

/-- Settles O19. -/
theorem shrDivides : Obligations.ShrDivides := by
  intro rd rs1 s
  have fits : s.readBn rs1 / 2 ^ s.shamt < 2 ^ 4096 := (Nat.div_le_self _ _).trans_lt (s.readBn_lt_two_pow rs1)
  have ends : exec (.bnShr rd rs1) s = (s.writeBn rd (s.readBn rs1 / 2 ^ s.shamt)).complete := by
    rw [← Nat.shiftRight_eq_div_pow]
    rfl
  obtain ⟨t, next, frame, value⟩ := completes_with_bn fits ends
  exact ⟨t, next, frame, value, fun h => value.trans (s.readBn_div_eq_zero rs1 h)⟩

/-! ### BN_BITLEN and BN_BITTEST -/

theorem State.toNat_setResult_result (s : State) {v : Nat} (h : v < 2 ^ 32) : (s.setResult v).result.toNat = v :=
  Nat.mod_eq_of_lt h

/-- Settles O21. -/
theorem bitLenAndBitTestGiveResult : Obligations.BitLenAndBitTestGiveResult := by
  intro rs1 s
  have at_most : bitLength (s.readBn rs1) ≤ 4096 := bitLength_bignum_le _
  have length : (s.setResult (bitLength (s.readBn rs1))).result.toNat = bitLength (s.readBn rs1) :=
    s.toNat_setResult_result (by omega)
  have bit : (s.setResult ((s.readBn rs1 >>> s.shamt) % 2)).result.toNat = s.readBn rs1 / 2 ^ s.shamt % 2 := by
    rw [s.toNat_setResult_result (by omega), Nat.shiftRight_eq_div_pow]
  refine ⟨⟨_, rfl, rfl, fun n => ?_, length.trans_le at_most⟩, ⟨_, rfl, rfl, bit, fun h => ?_⟩⟩
  · rw [State.finish_result, length, bitLength_le_iff]
  · apply BitVec.eq_of_toNat_eq
    rw [State.finish_result, bit, s.readBn_div_eq_zero rs1 h]
    rfl

end Sys2Proof.Machine
end

section
/-! PROOFS. Modular arithmetic: the two loops, and the commands that reduce (`40_bignum.md` R96 to R99). -/

namespace Sys2Proof.Machine

open Sys2Proof

/-! ### Reduction by shift and subtract (R96) -/

/-- With `k` subtractions to go and `r` below `m * 2^k`, the loop's `d` is `m * 2^(k-1)`. -/
theorem reduceLoop_eq_mod {m k r : Nat} (h : r < m * 2 ^ k) : reduceLoop k r (m * 2 ^ k / 2) = r % m := by
  induction k generalizing r with
  | zero =>
      rw [pow_zero, Nat.mul_one] at h
      exact (Nat.mod_eq_of_lt h).symm
  | succ k ih =>
      have d_eq : m * 2 ^ (k + 1) / 2 = m * 2 ^ k := by rw [pow_succ, ← Nat.mul_assoc, Nat.mul_div_cancel _ two_pos]
      rw [pow_succ, ← Nat.mul_assoc] at h
      rw [d_eq, reduceLoop]
      split
      · next le =>
          have multiple_removed : (r - m * 2 ^ k) % m = r % m := Nat.sub_mul_mod le
          rw [ih (by omega), multiple_removed]
      · next lt => exact ih (by omega)

/-- The loop starts with `d` large enough: `a` is below `2 * d`. -/
theorem lt_mul_two_pow_bitLength_sub {a m : Nat} (hm : 1 ≤ m) (h : m ≤ a) :
    a < m * 2 ^ (bitLength a - bitLength m + 1) := by
  have mpos : 0 < bitLength m := lt_bitLength_iff.mpr hm
  have le : bitLength m ≤ bitLength a := bitLength_le_iff.mpr (h.trans_lt (bitLength_le_iff.mp le_rfl))
  have high_bit : 2 ^ (bitLength m - 1) ≤ m := lt_bitLength_iff.mp (Nat.sub_lt mpos one_pos)
  calc a < 2 ^ bitLength a := bitLength_le_iff.mp le_rfl
    _ = 2 ^ (bitLength m - 1) * 2 ^ (bitLength a - bitLength m + 1) := by rw [← pow_add]; congr 1; omega
    _ ≤ m * 2 ^ (bitLength a - bitLength m + 1) := Nat.mul_le_mul_right _ high_bit

/-- Settles O22. -/
theorem reduceLoopIsMod : Obligations.ReduceLoopIsMod := by
  intro a m hm
  unfold reduceBySubtraction
  split
  · next lt => exact (Nat.mod_eq_of_lt lt).symm
  · next le =>
      have result := reduceLoop_eq_mod (lt_mul_two_pow_bitLength_sub hm (not_lt.mp le))
      rwa [pow_succ, ← Nat.mul_assoc, Nat.mul_div_cancel _ two_pos] at result

/-! ### Square and multiply (R99) -/

/-- What the loop has still to multiply `acc` by is `base ^ e`. -/
theorem modExpLoop_eq {m k e base acc : Nat} (hm : 0 < m) (he : e < 2 ^ k) (hacc : acc < m) :
    modExpLoop m k e base acc = acc * base ^ e % m := by
  induction k generalizing e base acc with
  | zero =>
      obtain rfl : e = 0 := by simpa using he
      rw [pow_zero, Nat.mul_one, Nat.mod_eq_of_lt hacc]
      rfl
  | succ k ih =>
      have shorter : e / 2 < 2 ^ k := by rw [pow_succ] at he; omega
      have squares (c : Nat) : c * (base * base % m) ^ (e / 2) ≡ c * base ^ (2 * (e / 2)) [MOD m] := by
        rw [pow_mul, pow_two]
        exact ((Nat.mod_modEq _ _).pow _).mul_left c
      unfold modExpLoop reduce
      split
      · next odd =>
          rw [ih shorter (Nat.mod_lt _ hm)]
          calc acc * base % m * (base * base % m) ^ (e / 2)
              ≡ acc * base * base ^ (2 * (e / 2)) [MOD m] := (squares _).trans ((Nat.mod_modEq _ _).mul_right _)
            _ = acc * base ^ e := by rw [Nat.mul_assoc, ← pow_succ', show 2 * (e / 2) + 1 = e by omega]
      · next even =>
          rw [ih shorter hacc]
          calc acc * (base * base % m) ^ (e / 2)
              ≡ acc * base ^ (2 * (e / 2)) [MOD m] := squares acc
            _ = acc * base ^ e := by rw [show 2 * (e / 2) = e by omega]

theorem modExp_eq_pow_mod (a e : Nat) {m : Nat} (hm : 0 < m) : modExp a e m = a ^ e % m :=
  calc modExp a e m = 1 % m * a ^ e % m := modExpLoop_eq hm (bitLength_le_iff.mp le_rfl) (Nat.mod_lt _ hm)
    _ = a ^ e % m := by rw [Nat.mod_mul_mod, Nat.one_mul]

/-! ### The commands -/

/-- A remainder by the value of a register fits into a register. -/
theorem State.mod_readBn_lt (s : State) (x : Nat) {rm : BnReg} (h : s.readBn rm ≠ 0) :
    x % s.readBn rm < 2 ^ 4096 :=
  (Nat.mod_lt _ (Nat.pos_of_ne_zero h)).trans (s.readBn_lt_two_pow rm)

/-- Settles O23. -/
theorem modAndModMulGiveRemainders : Obligations.ModAndModMulGiveRemainders := fun _ _ _ _ s =>
  ⟨fun zero => ⟨if_pos zero, if_pos zero⟩, fun nonzero =>
    ⟨completes_with_bn (s.mod_readBn_lt _ nonzero) (if_neg nonzero),
      completes_with_bn (s.mod_readBn_lt _ nonzero) (if_neg nonzero)⟩⟩

/-- Settles O24. -/
theorem modExpGivesThePowerModulo : Obligations.ModExpGivesThePowerModulo := by
  intro rd rs1 rs2 rm s
  refine ⟨fun zero => if_pos zero, fun nonzero => ?_⟩
  have power := modExp_eq_pow_mod (s.readBn rs1) (s.readBn rs2) (Nat.pos_of_ne_zero nonzero)
  have ends : exec (.bnModExp rd rs1 rs2 rm) s =
      (s.writeBn rd (modExp (s.readBn rs1) (s.readBn rs2) (s.readBn rm))).complete := if_neg nonzero
  rw [power] at ends
  exact completes_with_bn (s.mod_readBn_lt _ nonzero) ends

end Sys2Proof.Machine
end

section
/-! PROOFS. The RSA key store, and the blocks and powers of the RSA commands as numbers (`41_rsa.md` R100 to R102,
R104; `10_state.md` R34). -/

namespace Sys2Proof.Machine

open Sys2Proof

/-! ### `to_bytes` undone, and a leading zero byte (`00_scope.md` R14) -/

/-- `from_bytes(to_bytes(v, L)) = v` for a value that fits. -/
theorem fromBytes_toBytes {v n : Nat} (h : v < 256 ^ n) : fromBytes (toBytes v n) = v := by
  induction n generalizing v with
  | zero => exact (Nat.lt_one_iff.mp h).symm
  | succ n ih =>
      have quotient : v / 256 < 256 ^ n := Nat.div_lt_of_lt_mul (by rwa [pow_succ'] at h)
      have last : (BitVec.ofNat 8 v).toNat = v % 256 := BitVec.toNat_ofNat v 8
      rw [toBytes_succ, fromBytes_concat, ih quotient, last]
      omega

/-- Comparing the bytes of a value with a byte string of their number is comparing the values. -/
theorem toBytes_eq_iff {v : Nat} {s : List Byte} (h : v < 256 ^ s.length) :
    toBytes v s.length = s ↔ v = fromBytes s := by
  refine ⟨fun bytes => ?_, fun value => ?_⟩
  · exact (fromBytes_toBytes h).symm.trans (congrArg fromBytes bytes)
  · rw [value, toBytes_fromBytes]

theorem fromBytes_zero_cons (s : List Byte) : fromBytes (0x00 :: s) = fromBytes s := rfl

/-! ### RSA_SETKEY -/

/-- What the key store says of the lengths of `n` is what the invariant says of a store loaded after reset: it
depends on `n` only. -/
theorem State.setRsaKey_lengths (s : State) {n : Bignum} (e : Bignum) (hn : n ≠ 0) :
    (s.setRsaKey n e).rsaBits.toNat = bitLength n.toNat ∧
      (s.setRsaKey n e).rsaKlen.toNat = ((s.setRsaKey n e).rsaBits.toNat + 7) / 8 := by
  have loaded : (State.reset.setRsaKey n e).Inv := State.Inv.setRsaKey invHoldsAtReset e hn
  exact ⟨loaded.rsa_bits, loaded.rsa_klen⟩

/-- Settles O25. -/
theorem rsaSetKeyLoadsTheStore : Obligations.RsaSetKeyLoadsTheStore := by
  intro rs2 rm s
  refine ⟨fun zero => if_pos zero, fun nonzero => ?_⟩
  have modulus : s.bn.get rm ≠ 0 := fun zero => nonzero ((congrArg BitVec.toNat zero).trans BitVec.toNat_zero)
  obtain ⟨bits, klen⟩ := s.setRsaKey_lengths (s.bn.get rs2) modulus
  refine ⟨_, if_neg nonzero, rfl, rfl, rfl, fun n => ?_, klen⟩
  rw [State.finish_rsaBits, bits, bitLength_le_iff]
  rfl

/-! ### The modulus and its byte length -/

namespace State.Inv

variable {s : State}

theorem rsaN_pos (h : s.Inv) (key : s.rsaKv = true) : 0 < s.rsaN.toNat :=
  Nat.pos_of_ne_zero fun zero => h.rsa_valid.mp key (BitVec.eq_of_toNat_eq (zero.trans BitVec.toNat_zero.symm))

/-- RSA_KLEN in terms of the modulus. -/
theorem rsaKlen_eq (h : s.Inv) : s.rsaKlen.toNat = (bitLength s.rsaN.toNat + 7) / 8 := by
  rw [h.rsa_klen, h.rsa_bits]

/-- `k` bytes hold the modulus. -/
theorem rsaN_lt (h : s.Inv) : s.rsaN.toNat < 256 ^ s.rsaKlen.toNat := by
  have enough : bitLength s.rsaN.toNat ≤ 8 * s.rsaKlen.toNat := by rw [h.rsaKlen_eq]; omega
  rw [show 256 = 2 ^ 8 from rfl, ← pow_mul]
  exact bitLength_le_iff.mp enough

/-- `k - 1` bytes do not: the top byte of the modulus is not 0. -/
theorem le_rsaN (h : s.Inv) (key : s.rsaKv = true) : 256 ^ (s.rsaKlen.toNat - 1) ≤ s.rsaN.toNat := by
  have pos : 0 < bitLength s.rsaN.toNat := lt_bitLength_iff.mpr (h.rsaN_pos key)
  have too_few : 8 * (s.rsaKlen.toNat - 1) < bitLength s.rsaN.toNat := by rw [h.rsaKlen_eq]; omega
  rw [show 256 = 2 ^ 8 from rfl, ← pow_mul]
  exact lt_bitLength_iff.mp too_few

theorem rsaPower_eq (h : s.Inv) (key : s.rsaKv = true) (x : Nat) :
    s.rsaPower x = x ^ s.rsaE.toNat % s.rsaN.toNat :=
  modExp_eq_pow_mod x _ (h.rsaN_pos key)

/-- A power modulo the modulus fits into `k` bytes. -/
theorem rsaPower_lt (h : s.Inv) (key : s.rsaKv = true) (x : Nat) : s.rsaPower x < 256 ^ s.rsaKlen.toNat := by
  rw [h.rsaPower_eq key]
  exact (Nat.mod_lt _ (h.rsaN_pos key)).trans h.rsaN_lt

end State.Inv

/-! ### The two blocks -/

theorem encryptionBlock_length (ps msg : List Byte) :
    (encryptionBlock ps msg).length = ps.length + msg.length + 3 := by
  simp only [encryptionBlock, List.length_append, List.length_cons, List.length_nil]
  omega

/-- The block's first byte is 0. -/
theorem encryptionBlock_eq_zero_cons (ps msg : List Byte) :
    encryptionBlock ps msg = 0x00 :: (0x02 :: ps ++ [0x00] ++ msg) := rfl

/-- A block that starts with a zero byte stays below one byte fewer. -/
theorem fromBytes_encryptionBlock_lt (ps msg : List Byte) :
    fromBytes (encryptionBlock ps msg) < 256 ^ ((encryptionBlock ps msg).length - 1) := by
  rw [encryptionBlock_eq_zero_cons, fromBytes_zero_cons, List.length_cons, Nat.add_sub_cancel]
  exact fromBytes_lt _

/-- Settles O26: a block of `k` bytes that starts with 0 is below `256^(k-1)`, and the modulus is not. -/
theorem encryptionBlockBelowModulus : Obligations.EncryptionBlockBelowModulus := by
  intro s ps msg inv key fits padding
  have length : (encryptionBlock ps msg).length = s.rsaKlen.toNat := by
    rw [encryptionBlock_length, padding]
    omega
  have below := fromBytes_encryptionBlock_lt ps msg
  rw [length] at below
  exact ⟨length, below.trans_le (inv.le_rsaN key)⟩

theorem signatureBlock_length {k : Nat} (h : 54 ≤ k) {digest : List Byte} (hd : digest.length = 32) :
    (signatureBlock k digest).length = k := by
  have parts : (signatureBlock k digest).length = 2 + (k - 54) + 1 + 19 + digest.length := by
    simp only [signatureBlock, digestInfoPrefix, List.length_append, List.length_cons, List.length_nil,
      List.length_replicate]
  omega

end Sys2Proof.Machine
end

section
/-! PROOFS. RSA_ENC and RSA_VERIFY: the checks in order, and what each does where every check passes (`41_rsa.md`
R101 to R105). -/

namespace Sys2Proof.Machine

open Sys2Proof

variable {s : State}

/-! ### The checks both commands start with -/

/-- The first check, where the store holds no key. -/
theorem State.keyCheck_fails (o : Result) (h : s.rsaKv = false) :
    (if !s.rsaKv then s.fail .noKey else o) = s.fail .noKey :=
  if_pos (by rw [h]; rfl)

/-- The first two checks, where there is a key and `n` bytes from DATA_OFF on run past DATA. -/
theorem State.keyRangeCheck_fails {n : Nat} (o : Result) (key : s.rsaKv = true) (h : 16384 < s.off + n) :
    (if !s.rsaKv then s.fail .noKey else if !inRange s.off n then s.fail .range else o) = s.fail .range := by
  rw [key, if_neg (by decide), if_pos (not_inRange_iff.mpr h)]

/-- The first two checks, where both pass. -/
theorem State.keyRangeCheck_passes {n : Nat} (o : Result) (key : s.rsaKv = true) (h : s.off + n ≤ 16384) :
    (if !s.rsaKv then s.fail .noKey else if !inRange s.off n then s.fail .range else o) = o := by
  rw [key, if_neg (by decide), if_neg (mt not_inRange_iff.mp h.not_gt)]

/-! ### RSA_ENC -/

/-- The block RSA_ENC builds (R102): its message is the operand, its padding the start of PSBUF. -/
def State.encBlock (s : State) : List Byte :=
  encryptionBlock (s.psBytes (s.rsaKlen.toNat - s.len - 3)) (s.operand s.len)

/-- The state RSA_ENC leaves behind, before its completion step (R103). -/
def State.encrypted (s : State) : State :=
  (s.dataWrite s.off (toBytes (s.rsaPower (fromBytes s.encBlock)) s.rsaKlen.toNat)).setResult s.rsaKlen.toNat

theorem exec_rsaEnc_of_inRange (key : s.rsaKv = true) (hr : s.off + max s.len s.rsaKlen.toNat ≤ 16384) :
    exec .rsaEnc s =
      if s.len + 11 > s.rsaKlen.toNat then s.fail .msgLen
      else if (s.psBytes (s.rsaKlen.toNat - s.len - 3)).any (· == 0) then s.fail .padZero
      else s.encrypted.complete :=
  State.keyRangeCheck_passes _ key hr

theorem any_eq_zero_iff {ps : List Byte} : ps.any (· == 0) = true ↔ (0 : Byte) ∈ ps := by
  rw [List.any_beq']
  exact List.contains_iff_mem

/-- The `k` bytes RSA_ENC stores stand for the power it computed. -/
theorem State.Inv.fromBytes_encrypted (inv : s.Inv) (key : s.rsaKv = true) :
    fromBytes (Memory.readBytes s.encrypted.mem (Win.data + s.off) s.rsaKlen.toNat) =
      fromBytes s.encBlock ^ s.rsaE.toNat % s.rsaN.toNat := by
  have stored := Memory.readBytes_writeBytes_same s.mem (Win.data + s.off)
    (toBytes (s.rsaPower (fromBytes s.encBlock)) s.rsaKlen.toNat)
  rw [toBytes_length] at stored
  calc fromBytes (Memory.readBytes s.encrypted.mem (Win.data + s.off) s.rsaKlen.toNat)
      = fromBytes (toBytes (s.rsaPower (fromBytes s.encBlock)) s.rsaKlen.toNat) := congrArg fromBytes stored
    _ = s.rsaPower (fromBytes s.encBlock) := fromBytes_toBytes (inv.rsaPower_lt key _)
    _ = fromBytes s.encBlock ^ s.rsaE.toNat % s.rsaN.toNat := inv.rsaPower_eq key _

/-- RSA_ENC stores `k` bytes at DATA_OFF and no others. -/
theorem State.read_encrypted_outside {a : Nat} (outside : ¬ Span (Win.data + s.off) s.rsaKlen.toNat a) :
    Memory.read s.encrypted.mem a = Memory.read s.mem a :=
  Memory.read_writeBytes_outside _ _ (by rw [toBytes_length]; unfold Span at outside; omega)

theorem State.toNat_encrypted_result (s : State) : s.encrypted.result.toNat = s.rsaKlen.toNat :=
  State.toNat_setResult_result _ (s.rsaKlen.isLt.trans (by decide))

/-! ### RSA_VERIFY -/

/-- What RSA_VERIFY sets VOK to (R105): the power of the operand has the bytes of the expected block. -/
def State.signatureMatches (s : State) : Bool :=
  decide (s.rsaKlen.toNat ≥ 62) &&
    toBytes (s.rsaPower (fromBytes (s.operand s.len))) s.rsaKlen.toNat ==
      signatureBlock s.rsaKlen.toNat s.digestBytes

theorem exec_rsaVerify_of_inRange (key : s.rsaKv = true) (hr : s.off + s.len ≤ 16384) :
    exec .rsaVerify s =
      if s.len > Config.bnBytes then s.fail .capacity else (s.setVok s.signatureMatches).complete :=
  State.keyRangeCheck_passes _ key hr

/-- From 62 bytes on the expected block has `k` bytes, as the power has, so equal bytes are equal values. -/
theorem State.Inv.signatureMatches_iff (inv : s.Inv) (key : s.rsaKv = true) :
    s.signatureMatches = true ↔ 62 ≤ s.rsaKlen.toNat ∧
      fromBytes (s.operand s.len) ^ s.rsaE.toNat % s.rsaN.toNat =
        fromBytes (signatureBlock s.rsaKlen.toNat s.digestBytes) := by
  unfold State.signatureMatches
  rw [Bool.and_eq_true, decide_eq_true_iff, beq_iff_eq, ← inv.rsaPower_eq key]
  refine and_congr_right fun long => ?_
  have length : (signatureBlock s.rsaKlen.toNat s.digestBytes).length = s.rsaKlen.toNat :=
    signatureBlock_length (by omega) (Memory.readBytes_length _ _ _)
  have iff := toBytes_eq_iff (length.symm ▸ inv.rsaPower_lt key (fromBytes (s.operand s.len)))
  rwa [length] at iff

end Sys2Proof.Machine
end

section
/-! PROOFS. The statements about RSA_ENC and RSA_VERIFY (`41_rsa.md` R103, R105). -/

namespace Sys2Proof.Machine

open Sys2Proof

/-- Settles O27. -/
theorem rsaEncGivesThePaddedPower : Obligations.RsaEncGivesThePaddedPower := by
  intro s inv k ps msg
  refine ⟨State.keyCheck_fails _, State.keyRangeCheck_fails _, fun key hr long => ?msgLen,
    fun key hr fits zero => ?padZero, fun key hr fits nonzero => ?completes⟩
  case msgLen => exact (exec_rsaEnc_of_inRange key hr).trans (if_pos long)
  case padZero =>
    exact (exec_rsaEnc_of_inRange key hr).trans
      ((if_neg fits.not_gt).trans (if_pos (any_eq_zero_iff.mpr zero)))
  case completes =>
    have ends : exec .rsaEnc s = s.encrypted.complete :=
      (exec_rsaEnc_of_inRange key hr).trans
        ((if_neg fits.not_gt).trans (if_neg (mt any_eq_zero_iff.mp nonzero)))
    exact ⟨_, ends, rfl, fun _ => State.read_encrypted_outside, s.toNat_encrypted_result,
      inv.fromBytes_encrypted key⟩

/-- Settles O28. -/
theorem rsaVerifyTellsTheBlockMatch : Obligations.RsaVerifyTellsTheBlockMatch := by
  intro s inv k sig block
  refine ⟨State.keyCheck_fails _, State.keyRangeCheck_fails _, fun key hr long => ?capacity,
    fun key hr fits => ?completes⟩
  case capacity => exact (exec_rsaVerify_of_inRange key hr).trans (if_pos long)
  case completes =>
    exact ⟨_, (exec_rsaVerify_of_inRange key hr).trans (if_neg fits.not_gt), rfl, inv.signatureMatches_iff key⟩

end Sys2Proof.Machine
end

section
/-! PROOFS. The field GF(2^8) of AES (`42_aes.md` R106): its product is additive in each argument, so its laws
need a check at the eight powers of x only. Then SBOX and INV_SBOX (R107, R108). -/

namespace Sys2Proof.Machine

open Sys2Proof

/-! ### XorAdditive functions of a byte -/

/-- A byte is the sum of the powers of x at its bits. -/
theorem byte_eq_sum_powers : ∀ x : Byte,
    x = (List.range 8).foldr (fun i sum => (if x.getLsbD i then BitVec.twoPow 8 i else 0) ^^^ sum) 0 := by
  decide +kernel

/-- A function of bytes that takes sums to sums. -/
def XorAdditive (f : Byte → Byte) : Prop := ∀ x y, f (x ^^^ y) = f x ^^^ f y

theorem XorAdditive.map_zero {f : Byte → Byte} (hf : XorAdditive f) : f 0 = 0 := by
  have := hf 0 0
  rwa [BitVec.xor_self, BitVec.xor_self] at this

/-- XorAdditive functions that agree at the eight powers of x agree everywhere. -/
theorem XorAdditive.ext_powers {f g : Byte → Byte} (hf : XorAdditive f) (hg : XorAdditive g)
    (h : ∀ i < 8, f (BitVec.twoPow 8 i) = g (BitVec.twoPow 8 i)) (x : Byte) : f x = g x := by
  have sums (l : List Nat) (hl : ∀ i ∈ l, i < 8) :
      f (l.foldr (fun i sum => (if x.getLsbD i then BitVec.twoPow 8 i else 0) ^^^ sum) 0) =
        g (l.foldr (fun i sum => (if x.getLsbD i then BitVec.twoPow 8 i else 0) ^^^ sum) 0) := by
    induction l with
    | nil => exact hf.map_zero.trans hg.map_zero.symm
    | cons i l ih =>
        have head : f (if x.getLsbD i then BitVec.twoPow 8 i else 0) =
            g (if x.getLsbD i then BitVec.twoPow 8 i else 0) := by
          split
          · exact h i (hl i List.mem_cons_self)
          · exact hf.map_zero.trans hg.map_zero.symm
        rw [List.foldr_cons, hf, hg, head, ih fun j hj => hl j (List.mem_cons_of_mem _ hj)]
  rw [byte_eq_sum_powers x]
  exact sums _ fun i hi => List.mem_range.mp hi

/-! ### The product is additive in each argument -/

/-- What a bit selects is additive in the bit. -/
theorem ite_bit_xor (p q : Bool) (a : Byte) :
    (if p ^^ q then a else 0) = (if p then a else 0) ^^^ (if q then a else 0) := by
  cases p <;> cases q <;> simp

/-- What a bit selects is additive in the byte selected. -/
theorem ite_byte_xor (p : Bool) (a a' : Byte) :
    (if p then a ^^^ a' else 0) = (if p then a else 0) ^^^ (if p then a' else 0) := by
  cases p <;> simp

theorem xtime_additive : XorAdditive xtime := by
  intro a b
  simp only [xtime, BitVec.shiftLeft_xor_distrib, BitVec.getLsbD_xor, ite_bit_xor]
  ac_rfl

theorem gfMulLoop_xor_left (k : Nat) (a a' b : Byte) :
    gfMulLoop k (a ^^^ a') b = gfMulLoop k a b ^^^ gfMulLoop k a' b := by
  induction k generalizing a a' b with
  | zero => exact BitVec.xor_self.symm
  | succ k ih =>
      simp only [gfMulLoop, ite_byte_xor, xtime_additive a a', ih]
      ac_rfl

theorem gfMulLoop_xor_right (k : Nat) (a b b' : Byte) :
    gfMulLoop k a (b ^^^ b') = gfMulLoop k a b ^^^ gfMulLoop k a b' := by
  induction k generalizing a b b' with
  | zero => exact BitVec.xor_self.symm
  | succ k ih =>
      simp only [gfMulLoop, BitVec.ushiftRight_xor_distrib, BitVec.getLsbD_xor, ite_bit_xor, ih]
      ac_rfl

theorem gfMul_xor_left (a a' b : Byte) : gfMul (a ^^^ a') b = gfMul a b ^^^ gfMul a' b :=
  gfMulLoop_xor_left 8 a a' b

theorem gfMul_xor_right (a b b' : Byte) : gfMul a (b ^^^ b') = gfMul a b ^^^ gfMul a b' :=
  gfMulLoop_xor_right 8 a b b'

/-! ### The laws of the product -/

theorem gfMul_assoc_powers : ∀ i < 8, ∀ j < 8, ∀ k < 8,
    gfMul (gfMul (BitVec.twoPow 8 i) (BitVec.twoPow 8 j)) (BitVec.twoPow 8 k) =
      gfMul (BitVec.twoPow 8 i) (gfMul (BitVec.twoPow 8 j) (BitVec.twoPow 8 k)) := by
  decide +kernel

/-- Both sides are additive in each of the three factors, so three rounds of `XorAdditive.ext_powers` leave powers. -/
theorem gfMul_assoc (a b c : Byte) : gfMul (gfMul a b) c = gfMul a (gfMul b c) := by
  refine XorAdditive.ext_powers (f := fun a => gfMul (gfMul a b) c) (g := fun a => gfMul a (gfMul b c))
    (fun x y => ?_) (fun x y => gfMul_xor_left x y _) (fun i hi => ?_) a
  · simp only [gfMul_xor_left]
  refine XorAdditive.ext_powers (f := fun b => gfMul (gfMul _ b) c) (g := fun b => gfMul _ (gfMul b c))
    (fun x y => ?_) (fun x y => ?_) (fun j hj => ?_) b
  · simp only [gfMul_xor_left, gfMul_xor_right]
  · simp only [gfMul_xor_left, gfMul_xor_right]
  refine XorAdditive.ext_powers (f := gfMul (gfMul _ _)) (g := fun c => gfMul _ (gfMul _ c))
    (gfMul_xor_right _) (fun x y => ?_) (gfMul_assoc_powers i hi j hj) c
  simp only [gfMul_xor_right]

theorem gfMul_one_left (a : Byte) : gfMul 1 a = a :=
  XorAdditive.ext_powers (gfMul_xor_right 1) (g := id) (fun _ _ => rfl) (by decide) a

theorem gfMul_one_right (a : Byte) : gfMul a 1 = a :=
  XorAdditive.ext_powers (f := fun a => gfMul a 1) (fun x y => gfMul_xor_left x y 1) (g := id) (fun _ _ => rfl)
    (by decide) a

theorem gfMul_zero_left (a : Byte) : gfMul 0 a = 0 :=
  XorAdditive.map_zero (f := fun x => gfMul x a) fun x y => gfMul_xor_left x y a

/-! ### SBOX and INV_SBOX -/

theorem invSbox_sbox : ∀ x : Byte, invSbox (sbox x) = x := by decide +kernel

theorem sbox_invSbox : ∀ x : Byte, sbox (invSbox x) = x := by decide +kernel

/-- The affine transform of R107. -/
def sboxAffine (y : Byte) : Byte :=
  y ^^^ y.rotateLeft 1 ^^^ y.rotateLeft 2 ^^^ y.rotateLeft 3 ^^^ y.rotateLeft 4 ^^^ 0x63

/-- The byte whose affine transform is `z`. -/
def sboxAffineInverse (z : Byte) : Byte := z.rotateLeft 1 ^^^ z.rotateLeft 3 ^^^ z.rotateLeft 6 ^^^ 0x05

theorem sboxAffine_inverse : ∀ z : Byte, sboxAffine (sboxAffineInverse z) = z := by decide +kernel

/-- The inverse of `x` in GF(2^8) that SBOX uses: its entry with the affine transform taken off. -/
def gfInverse (x : Byte) : Byte := sboxAffineInverse (sbox x)

theorem sboxAffine_gfInverse (x : Byte) : sboxAffine (gfInverse x) = sbox x := sboxAffine_inverse (sbox x)

theorem gfInverse_zero : gfInverse 0 = 0 := by decide

theorem gfMul_gfInverse : ∀ x : Byte, x = 0 ∨ gfMul x (gfInverse x) = 1 ∧ gfMul (gfInverse x) x = 1 := by
  decide +kernel

/-- No other byte is an inverse of `x`, as the product is associative. -/
theorem eq_gfInverse {x y : Byte} (h : gfMul x y = 1) : y = gfInverse x := by
  rcases gfMul_gfInverse x with rfl | ⟨-, left⟩
  · exact absurd ((gfMul_zero_left y).symm.trans h) (by decide)
  · calc y = gfMul (gfMul (gfInverse x) x) y := by rw [left, gfMul_one_left]
      _ = gfInverse x := by rw [gfMul_assoc, h, gfMul_one_right]

/-- Settles O29. -/
theorem sboxIsAffineInverse : Obligations.SboxIsAffineInverse := by
  refine ⟨fun x y h => ?_, fun x => ?_, fun x => ⟨invSbox_sbox x, sbox_invSbox x⟩⟩
  · have inverse : y = gfInverse x := by
      rcases h with ⟨rfl, rfl⟩ | h
      · exact gfInverse_zero.symm
      · exact eq_gfInverse h
    rw [inverse]
    exact (sboxAffine_gfInverse x).symm
  · exact (gfMul_gfInverse x).imp_right fun ⟨right, _⟩ => ⟨_, right⟩

end Sys2Proof.Machine
end

section
/-! PROOFS. Decryption undoes encryption, transform by transform (`42_aes.md` R109 to R111). -/

namespace Sys2Proof.Machine

open Sys2Proof

/-! ### The inverse of each transform -/

theorem invShiftRows_shiftRows (s : AesState) : invShiftRows (shiftRows s) = s := rfl

theorem invSubBytes_subBytes (s : AesState) : invSubBytes (subBytes s) = s := by
  simp only [invSubBytes, subBytes, AesState.mapBytes, invSbox_sbox]

/-- Two circulants in a row are the circulant of the product of their coefficients. -/
theorem mixColumn_mixColumn (k0 k1 k2 k3 m0 m1 m2 m3 : Byte) (a : Column) :
    mixColumn k0 k1 k2 k3 (mixColumn m0 m1 m2 m3 a) =
      mixColumn (gfMul k0 m0 ^^^ gfMul k1 m3 ^^^ gfMul k2 m2 ^^^ gfMul k3 m1)
        (gfMul k0 m1 ^^^ gfMul k1 m0 ^^^ gfMul k2 m3 ^^^ gfMul k3 m2)
        (gfMul k0 m2 ^^^ gfMul k1 m1 ^^^ gfMul k2 m0 ^^^ gfMul k3 m3)
        (gfMul k0 m3 ^^^ gfMul k1 m2 ^^^ gfMul k2 m1 ^^^ gfMul k3 m0) a := by
  simp only [mixColumn, gfMul_xor_left, gfMul_xor_right, gfMul_assoc, Column.mk.injEq]
  and_intros <;> ac_rfl

theorem mixColumn_identity (a : Column) : mixColumn 1 0 0 0 a = a := by
  have xor_zero (x : Byte) : x ^^^ 0 = x := BitVec.xor_zero
  simp only [mixColumn, gfMul_one_left, gfMul_zero_left, xor_zero]

/-- The coefficients of InvMixColumns are the inverse of those of MixColumns (R109). -/
theorem mixColumn_inverse (a : Column) : mixColumn 0x0E 0x0B 0x0D 0x09 (mixColumn 2 3 1 1 a) = a :=
  calc mixColumn 0x0E 0x0B 0x0D 0x09 (mixColumn 2 3 1 1 a)
      = mixColumn 1 0 0 0 a := mixColumn_mixColumn _ _ _ _ _ _ _ _ a
    _ = a := mixColumn_identity a

theorem invMixColumns_mixColumns (s : AesState) : invMixColumns (mixColumns s) = s := by
  simp only [invMixColumns, mixColumns, AesState.mapColumns, mixColumn_inverse]

theorem addWord_addWord (c : Column) (w : Word) : addWord (addWord c w) w = c := by
  simp only [addWord, BitVec.xor_assoc, BitVec.xor_self, BitVec.xor_zero]

theorem addRoundKey_addRoundKey (w : RoundKeys) (r : Nat) (s : AesState) :
    addRoundKey w r (addRoundKey w r s) = s := by
  simp only [addRoundKey, addWord_addWord]

/-! ### The rounds -/

/-- ShiftRows of SubBytes, which every round of encryption starts with (R110). -/
def shiftSub (s : AesState) : AesState := shiftRows (subBytes s)

theorem invSubBytes_invShiftRows_shiftSub (s : AesState) : invSubBytes (invShiftRows (shiftSub s)) = s := by
  rw [shiftSub, invShiftRows_shiftRows, invSubBytes_subBytes]

/-- A round of decryption undoes a round of encryption: both stand between ShiftRows and MixColumns, where the
rounds of encryption are cut. -/
theorem decRound_shiftSub_encRound (w : RoundKeys) (s : AesState) (r : Nat) :
    decRound w (shiftSub (encRound w s r)) r = shiftSub s := by
  rw [decRound, invSubBytes_invShiftRows_shiftSub, encRound, addRoundKey_addRoundKey, invMixColumns_mixColumns,
    shiftSub]

/-- Rounds of encryption are undone by the same rounds of decryption in the opposite order. -/
theorem decRounds_shiftSub_encRounds (w : RoundKeys) (rounds : List Nat) (s : AesState) :
    rounds.reverse.foldl (decRound w) (shiftSub (rounds.foldl (encRound w) s)) = shiftSub s := by
  induction rounds generalizing s with
  | nil => rfl
  | cons r rounds ih =>
      simp only [List.reverse_cons, List.foldl_append, List.foldl_cons, List.foldl_nil, ih]
      exact decRound_shiftSub_encRound w s r

theorem decryptState_encryptState (w : RoundKeys) (s : AesState) : decryptState w (encryptState w s) = s := by
  have rounds := decRounds_shiftSub_encRounds w [1, 2, 3, 4, 5, 6, 7, 8, 9] (addRoundKey w 0 s)
  calc decryptState w (encryptState w s)
      = addRoundKey w 0 (invSubBytes (invShiftRows ([9, 8, 7, 6, 5, 4, 3, 2, 1].foldl (decRound w)
          (shiftSub ([1, 2, 3, 4, 5, 6, 7, 8, 9].foldl (encRound w) (addRoundKey w 0 s)))))) := by
        rw [decryptState, encryptState, addRoundKey_addRoundKey, shiftSub]
    _ = addRoundKey w 0 (invSubBytes (invShiftRows (shiftSub (addRoundKey w 0 s)))) :=
        congrArg (fun t => addRoundKey w 0 (invSubBytes (invShiftRows t))) rounds
    _ = s := by rw [invSubBytes_invShiftRows_shiftSub, addRoundKey_addRoundKey]

/-! ### Blocks -/

theorem AesState.ofBlock_toBlock (s : AesState) : AesState.ofBlock s.toBlock = s := rfl

theorem AesState.toBlock_ofBlock {b : List Byte} (h : b.length = 16) : (AesState.ofBlock b).toBlock = b := by
  apply List.ext_getElem ((AesState.toBlock_length _).trans h.symm)
  intro i hi _
  have : i < 16 := hi
  interval_cases i <;> exact List.getD_eq_getElem b 0 _

/-- Settles O31. -/
theorem aesDecryptInvertsEncrypt : Obligations.AesDecryptInvertsEncrypt := by
  intro w b h
  rw [aesDecrypt, aesEncrypt, AesState.ofBlock_toBlock, decryptState_encryptState, AesState.toBlock_ofBlock h]

end Sys2Proof.Machine
end

section
/-! PROOFS. The key schedule and AES_KEYEXP, and the commands on one block (`42_aes.md` R112 to R114). -/

namespace Sys2Proof.Machine

open Sys2Proof

/-! ### The words of the schedule -/

/-- A longer expansion keeps the words there are. -/
theorem expandKey_succ_getElem_of_lt (key : List Byte) {n i : Nat} (h : i < 4 + n) :
    (expandKey key (n + 1))[i] = (expandKey key n)[i] := by
  rw [expandKey, Vector.getElem_push_lt]

theorem expandKey_succ_getElem_last (key : List Byte) (n : Nat) :
    (expandKey key (n + 1))[4 + n] =
      (expandKey key n)[n] ^^^ scheduleWord (4 + n) (expandKey key n)[3 + n] := by
  rw [expandKey, Vector.getElem_push_eq]

/-- A word does not depend on how far the expansion goes. -/
theorem expandKey_getElem_of_le (key : List Byte) {n m i : Nat} (h : i < 4 + n) (hm : n ≤ m) :
    (expandKey key m)[i] = (expandKey key n)[i] := by
  induction m, hm using Nat.le_induction with
  | base => rfl
  | succ m hm ih => rw [expandKey_succ_getElem_of_lt key (by omega), ih]

theorem roundKeyWord_keySchedule (key : List Byte) {n i : Nat} (h : i < 4 + n) (hn : n ≤ 40) :
    roundKeyWord (keySchedule key) i = (expandKey key n)[i] := by
  have inside : i < 44 := by omega
  calc roundKeyWord (keySchedule key) i = (keySchedule key)[i] := by
        rw [roundKeyWord, List.getD_eq_getElem _ _ (by simpa using inside), Vector.getElem_toList]
    _ = (expandKey key n)[i] := expandKey_getElem_of_le key h hn

/-- The recurrence of R112. -/
theorem roundKeyWord_keySchedule_step (key : List Byte) {n : Nat} (hn : n < 40) :
    roundKeyWord (keySchedule key) (4 + n) =
      roundKeyWord (keySchedule key) n ^^^ scheduleWord (4 + n) (roundKeyWord (keySchedule key) (3 + n)) := by
  rw [roundKeyWord_keySchedule key (n := n + 1) (by omega) hn, expandKey_succ_getElem_last,
    roundKeyWord_keySchedule key (n := n) (by omega) hn.le, roundKeyWord_keySchedule key (n := n) (by omega) hn.le]

/-- The first four words are the key. -/
theorem roundKeyWord_keySchedule_key (key : List Byte) {i : Nat} (h : i < 4) :
    roundKeyWord (keySchedule key) i = wordBeAt key (4 * i) := by
  rw [roundKeyWord_keySchedule key (n := 0) h (by decide)]
  interval_cases i <;> rfl

/-- RCON as a word. -/
theorem rcon_setWidth (j : Nat) : (rcon j).setWidth 32 =
    [0x01, 0x02, 0x04, 0x08, 0x10, 0x20, 0x40, 0x80, 0x1b, 0x36].getD (j - 1) (0 : Word) :=
  (List.getD_map _ (0 : Byte) (BitVec.setWidth 32)).symm

theorem wordBeAt_readBytes (m : Memory) {a n i : Nat} (h : i + 3 < n) :
    wordBeAt (Memory.readBytes m a n) i = Memory.read m (a + i) ++ Memory.read m (a + i + 1) ++
      Memory.read m (a + i + 2) ++ Memory.read m (a + i + 3) := by
  rw [wordBeAt, Memory.readBytes_getD _ _ (by omega), Memory.readBytes_getD _ _ (by omega),
    Memory.readBytes_getD _ _ (by omega), Memory.readBytes_getD _ _ h]
  rfl

/-! ### AES_KEYEXP -/

/-- Completing after one slot write changes no other slot and no memory. -/
theorem State.frameSlot_setSlot (s : State) (k : Slot) (v : KeySlot) :
    FrameSlot k s ((s.setSlot k v).finish .ok) :=
  ⟨rfl, fun _ other => s.slot_setSlot_other v other, fun _ => rfl⟩

/-- Settles O30. -/
theorem aesKeyExpFollowsTheRecurrence : Obligations.AesKeyExpFollowsTheRecurrence := by
  intro k s
  set v : KeySlot := { rk := keySchedule s.aesKeyBytes, kv := true, nu := false }
  have slot : ((s.setSlot k v).finish .ok).slot k = v := by rw [State.slot_finish, State.slot_setSlot_same]
  refine ⟨(s.setSlot k v).finish .ok, rfl, s.frameSlot_setSlot k v, ?_⟩
  rw [slot]
  refine ⟨rfl, rfl, fun i hi => ?key, fun i lo hi => ?recurrence⟩
  case key =>
    rw [roundKeyWord_keySchedule_key _ hi]
    exact wordBeAt_readBytes s.mem (by omega)
  case recurrence =>
    obtain ⟨n, rfl⟩ := Nat.exists_eq_add_of_le lo
    rw [roundKeyWord_keySchedule_step _ (by omega), scheduleWord, rcon_setWidth, rotWord,
      show 4 + n - 4 = n by omega, show 4 + n - 1 = 3 + n by omega]

/-! ### A command on one block -/

/-- The first check of the commands on one block. -/
theorem blockCheck_of_noKey {s : State} {k : Slot} (h : (s.slot k).kv = false) :
    s.blockCheck k = some .noKey := by
  simp only [State.blockCheck, h, Bool.not_false, if_true]

/-- The second check of the commands on one block. -/
theorem blockCheck_of_range {s : State} {k : Slot} (key : (s.slot k).kv = true) (h : 16384 < s.off + 16) :
    s.blockCheck k = some .range := by
  rw [State.blockCheck, key, if_neg (by decide), if_pos (not_inRange_iff.mpr h)]

theorem exec_aesEncBlk_of_fails {s : State} {k : Slot} {e : ErrCode} (h : s.blockCheck k = some e) :
    exec (.aesEncBlk k) s = s.fail e := by
  simp only [exec, execAesEncBlk, h]

theorem exec_aesEncBlk_of_passes {s : State} {k : Slot} (h : s.blockCheck k = none) :
    exec (.aesEncBlk k) s = (s.dataWrite s.off (aesEncrypt (s.slot k).rk (s.operand 16))).complete := by
  simp only [exec, execAesEncBlk, h]

theorem exec_aesDecBlk_of_fails {s : State} {k : Slot} {e : ErrCode} (h : s.blockCheck k = some e) :
    exec (.aesDecBlk k) s = s.fail e := by
  simp only [exec, execAesDecBlk, h]

theorem exec_aesDecBlk_of_passes {s : State} {k : Slot} (h : s.blockCheck k = none) :
    exec (.aesDecBlk k) s = (s.dataWrite s.off (aesDecrypt (s.slot k).rk (s.operand 16))).complete := by
  simp only [exec, execAesDecBlk, h]

/-- A command that ends by storing `n` bytes at DATA_OFF stores these bytes, and nothing else. -/
theorem completes_with_data {i : Instr} {s : State} {n : Nat} {out : List Byte} (length : out.length = n)
    (ends : exec i s = (s.dataWrite s.off out).complete) :
    ∃ t, exec i s = .next t ∧ FrameMem (Span (Win.data + s.off) n) s t ∧
      Memory.readBytes t.mem (Win.data + s.off) n = out := by
  subst length
  exact ⟨_, ends, s.frameMem_dataWrite s.off out, Memory.readBytes_writeBytes_same _ _ out⟩

/-- Settles O32. -/
theorem aesEncBlkEncryptsInPlace : Obligations.AesEncBlkEncryptsInPlace := fun _ _ =>
  ⟨fun h => exec_aesEncBlk_of_fails (blockCheck_of_noKey h),
    fun key h => exec_aesEncBlk_of_fails (blockCheck_of_range key h),
    fun key h => completes_with_data (aesEncrypt_length _ _)
      (exec_aesEncBlk_of_passes (blockCheck_eq_none.mpr ⟨key, h⟩))⟩

/-- Settles O33. -/
theorem aesDecBlkDecryptsInPlace : Obligations.AesDecBlkDecryptsInPlace := fun _ _ =>
  ⟨fun h => exec_aesDecBlk_of_fails (blockCheck_of_noKey h),
    fun key h => exec_aesDecBlk_of_fails (blockCheck_of_range key h),
    fun key h => completes_with_data (aesDecrypt_length _ _)
      (exec_aesDecBlk_of_passes (blockCheck_eq_none.mpr ⟨key, h⟩))⟩

end Sys2Proof.Machine
end

section
/-! PROOFS. CBC on byte strings, block by block (`42_aes.md` R115, R116). -/

namespace Sys2Proof.Machine

open Sys2Proof

/-! ### The blocks of a byte string -/

/-- Block `j` of 16 bytes. -/
def blockAt (s : List Byte) (j : Nat) : List Byte := (s.drop (16 * j)).take 16

/-- The block before block `j`, where `first` stands before block 0. -/
def blockBefore (first s : List Byte) : Nat → List Byte
  | 0 => first
  | j + 1 => blockAt s j

theorem blockAt_zero (s : List Byte) : blockAt s 0 = s.take 16 := rfl

theorem blockAt_succ (s : List Byte) (j : Nat) : blockAt s (j + 1) = blockAt (s.drop 16) j := by
  rw [blockAt, blockAt, List.drop_drop, Nat.mul_succ, Nat.add_comm]

theorem blockAt_append_zero {b : List Byte} (s : List Byte) (h : b.length = 16) : blockAt (b ++ s) 0 = b :=
  List.take_left' h

theorem blockAt_append_succ {b : List Byte} (s : List Byte) (j : Nat) (h : b.length = 16) :
    blockAt (b ++ s) (j + 1) = blockAt s j := by
  rw [blockAt_succ, List.drop_left' h]

theorem blockBefore_succ (first s : List Byte) (j : Nat) :
    blockBefore first s (j + 1) = blockBefore (s.take 16) (s.drop 16) j := by
  cases j with
  | zero => rfl
  | succ j => exact blockAt_succ s j

theorem blockBefore_append_succ {b : List Byte} (first s : List Byte) (j : Nat) (h : b.length = 16) :
    blockBefore first (b ++ s) (j + 1) = blockBefore b s j := by
  rw [blockBefore_succ, List.take_left' h, List.drop_left' h]

/-- Block `j` of a byte string in the memory. -/
theorem blockAt_readBytes (m : Memory) (a : Nat) {n j : Nat} (h : j < n / 16) :
    blockAt (Memory.readBytes m a n) j = Memory.readBytes m (a + 16 * j) 16 := by
  apply List.ext_getElem
  · rw [blockAt, List.length_take, List.length_drop, Memory.readBytes_length, Memory.readBytes_length]
    omega
  · intro i _ _
    simp only [blockAt, Memory.readBytes, List.getElem_take, List.getElem_drop, List.getElem_map,
      List.getElem_range, Nat.add_assoc]

theorem blockBefore_readBytes (first : List Byte) (m : Memory) (a : Nat) {n j : Nat} (h : j ≤ n / 16) :
    blockBefore first (Memory.readBytes m a n) j =
      if j = 0 then first else Memory.readBytes m (a + 16 * (j - 1)) 16 := by
  cases j with
  | zero => rfl
  | succ j => exact blockAt_readBytes m a h

/-- The last of whole blocks in the memory. -/
theorem blockBefore_readBytes_last (first : List Byte) (m : Memory) (a : Nat) {n : Nat} (whole : n % 16 = 0) :
    blockBefore first (Memory.readBytes m a n) (n / 16) =
      if n = 0 then first else Memory.readBytes m (a + n - 16) 16 := by
  have place : n ≠ 0 → a + 16 * (n / 16 - 1) = a + n - 16 := by omega
  rw [blockBefore_readBytes first m a le_rfl]
  by_cases empty : n = 0
  · subst empty
    rfl
  · rw [if_neg empty, if_neg (by omega), place empty]

/-! ### The two chains -/

theorem cbcEncrypt_blockAt (w : RoundKeys) {n j : Nat} (prev p : List Byte) (h : j < n) :
    blockAt (cbcEncrypt w n prev p).1 j =
      aesEncrypt w (xorBytes (blockAt p j) (blockBefore prev (cbcEncrypt w n prev p).1 j)) := by
  induction n generalizing prev p j with
  | zero => omega
  | succ n ih =>
      cases j with
      | zero => exact blockAt_append_zero _ (aesEncrypt_length _ _)
      | succ j =>
          rw [cbcEncrypt, blockAt_append_succ _ _ (aesEncrypt_length _ _), ih _ _ (Nat.lt_of_succ_lt_succ h),
            blockBefore_append_succ _ _ _ (aesEncrypt_length _ _), blockAt_succ]

theorem cbcEncrypt_last (w : RoundKeys) (n : Nat) (prev p : List Byte) :
    (cbcEncrypt w n prev p).2 = blockBefore prev (cbcEncrypt w n prev p).1 n := by
  induction n generalizing prev p with
  | zero => rfl
  | succ n ih => rw [cbcEncrypt, blockBefore_append_succ _ _ _ (aesEncrypt_length _ _), ← ih]

theorem cbcDecrypt_blockAt (w : RoundKeys) {n j : Nat} {prev c : List Byte} (hp : prev.length = 16)
    (hc : 16 * n ≤ c.length) (h : j < n) :
    blockAt (cbcDecrypt w n prev c).1 j = xorBytes (aesDecrypt w (blockAt c j)) (blockBefore prev c j) := by
  have block : (xorBytes (aesDecrypt w (c.take 16)) prev).length = 16 := by
    rw [xorBytes_length, aesDecrypt_length, hp, Nat.min_self]
  induction n generalizing prev c j with
  | zero => omega
  | succ n ih =>
      cases j with
      | zero => exact blockAt_append_zero _ block
      | succ j =>
          have head : (c.take 16).length = 16 := by rw [List.length_take]; omega
          rw [cbcDecrypt, blockAt_append_succ _ _ block, blockAt_succ, blockBefore_succ]
          refine ih head ?_ (Nat.lt_of_succ_lt_succ h) ?_
          · rw [List.length_drop]; omega
          · rw [xorBytes_length, aesDecrypt_length, head, Nat.min_self]

theorem cbcDecrypt_last (w : RoundKeys) (n : Nat) (prev c : List Byte) :
    (cbcDecrypt w n prev c).2 = blockBefore prev c n := by
  induction n generalizing prev c with
  | zero => rfl
  | succ n ih => rw [cbcDecrypt, ih, blockBefore_succ]

theorem xorBytes_xorBytes_cancel {a b : List Byte} (h : a.length = b.length) : xorBytes (xorBytes a b) b = a := by
  apply List.ext_getElem
  · rw [xorBytes_length, xorBytes_length]
    omega
  · intro i _ _
    simp only [xorBytes, List.getElem_zipWith, BitVec.xor_assoc, BitVec.xor_self, BitVec.xor_zero]

/-- CBC decryption undoes CBC encryption from the same initial vector. -/
theorem cbcDecrypt_cbcEncrypt (w : RoundKeys) {n : Nat} {prev p : List Byte} (hp : prev.length = 16)
    (hl : p.length = 16 * n) : (cbcDecrypt w n prev (cbcEncrypt w n prev p).1).1 = p := by
  induction n generalizing prev p with
  | zero => exact (List.length_eq_zero_iff.mp hl).symm
  | succ n ih =>
      have first : (p.take 16).length = 16 := by rw [List.length_take]; omega
      have sum : (xorBytes (p.take 16) prev).length = 16 := by
        rw [xorBytes_length, first, hp, Nat.min_self]
      have rest : (p.drop 16).length = 16 * n := by rw [List.length_drop]; omega
      simp only [cbcEncrypt, cbcDecrypt, List.take_left' (aesEncrypt_length _ _),
        List.drop_left' (aesEncrypt_length _ _)]
      rw [ih (aesEncrypt_length _ _) rest, aesDecryptInvertsEncrypt w _ sum,
        xorBytes_xorBytes_cancel (first.trans hp.symm), List.take_append_drop]

end Sys2Proof.Machine
end

section
/-! PROOFS. AES_CBCENC and AES_CBCDEC (`42_aes.md` R115, R116). -/

namespace Sys2Proof.Machine

open Sys2Proof

/-! ### The checks in order -/

theorem cbcCheck_of_noKey {s : State} {k : Slot} (h : (s.slot k).kv = false) : s.cbcCheck k = some .noKey := by
  simp only [State.cbcCheck, h, Bool.not_false, if_true]

theorem cbcCheck_of_range {s : State} {k : Slot} (key : (s.slot k).kv = true) (h : 16384 < s.off + s.len) :
    s.cbcCheck k = some .range := by
  rw [State.cbcCheck, key, if_neg (by decide), if_pos (not_inRange_iff.mpr h)]

theorem cbcCheck_of_align {s : State} {k : Slot} (key : (s.slot k).kv = true) (hr : s.off + s.len ≤ 16384)
    (h : s.len % 16 ≠ 0) : s.cbcCheck k = some .align := by
  rw [State.cbcCheck, key, if_neg (by decide), if_neg (mt not_inRange_iff.mp hr.not_gt), if_pos h]

/-! ### The two commands, by their checks -/

/-- What a CBC command has written before it completes: the blocks at DATA_OFF, and AES_IV. -/
def State.storeChain (s : State) (out : List Byte × List Byte) : State :=
  (s.dataWrite s.off out.1).writeWindow Win.aesIv out.2

/-- The output of AES_CBCENC. -/
def State.cbcEncrypted (s : State) (k : Slot) : List Byte × List Byte :=
  cbcEncrypt (s.slot k).rk (s.len / 16) s.aesIvBytes (s.operand s.len)

/-- The output of AES_CBCDEC. -/
def State.cbcDecrypted (s : State) (k : Slot) : List Byte × List Byte :=
  cbcDecrypt (s.slot k).rk (s.len / 16) s.aesIvBytes (s.operand s.len)

section
variable {s : State} {k : Slot} {e : ErrCode}

theorem exec_aesCbcEnc_of_fails (h : s.cbcCheck k = some e) : exec (.aesCbcEnc k) s = s.fail e := by
  simp only [exec, execAesCbcEnc, h]

theorem exec_aesCbcEnc_of_passes (h : s.cbcCheck k = none) :
    exec (.aesCbcEnc k) s = (s.storeChain (s.cbcEncrypted k)).complete := by
  simp only [exec, execAesCbcEnc, h, State.storeChain, State.cbcEncrypted]

theorem exec_aesCbcDec_of_fails (h : s.cbcCheck k = some e) : exec (.aesCbcDec k) s = s.fail e := by
  simp only [exec, execAesCbcDec, h]

theorem exec_aesCbcDec_of_passes (h : s.cbcCheck k = none) :
    exec (.aesCbcDec k) s = (s.storeChain (s.cbcDecrypted k)).complete := by
  simp only [exec, execAesCbcDec, h, State.storeChain, State.cbcDecrypted]

/-! ### The sizes of what they store -/

theorem State.cbcEncrypted_length (whole : s.len % 16 = 0) : (s.cbcEncrypted k).1.length = s.len := by
  rw [State.cbcEncrypted, cbcEncrypt_length]
  omega

theorem State.cbcEncrypted_last_length : (s.cbcEncrypted k).2.length = 16 :=
  cbcEncrypt_last_length _ _ _ s.aesIvBytes_length

theorem State.operand_whole (s : State) : 16 * (s.len / 16) ≤ (s.operand s.len).length := by
  rw [State.operand_length]
  omega

theorem State.cbcDecrypted_length (whole : s.len % 16 = 0) : (s.cbcDecrypted k).1.length = s.len := by
  rw [State.cbcDecrypted, cbcDecrypt_length _ _ s.aesIvBytes_length s.operand_whole]
  omega

theorem State.cbcDecrypted_last_length : (s.cbcDecrypted k).2.length = 16 :=
  cbcDecrypt_last_length _ _ s.aesIvBytes_length s.operand_whole

/-! ### What they leave in the memory -/

theorem aesIv_below_data (off : Nat) : Win.aesIv + 16 ≤ Win.data + off := Nat.le_add_right_of_le (by decide)

/-- AES_IV lies below DATA, so storing it leaves the blocks in place. -/
theorem State.storeChain_data (s : State) {out : List Byte × List Byte} (hl : out.1.length = s.len)
    (hiv : out.2.length = 16) : Memory.readBytes (s.storeChain out).mem (Win.data + s.off) s.len = out.1 := by
  have below : Win.aesIv + out.2.length ≤ Win.data + s.off := hiv ▸ aesIv_below_data s.off
  calc Memory.readBytes (s.storeChain out).mem (Win.data + s.off) s.len
      = Memory.readBytes (Memory.writeBytes s.mem (Win.data + s.off) out.1) (Win.data + s.off) s.len :=
        Memory.readBytes_writeBytes_apart _ _ (.inr below)
    _ = out.1 := by rw [← hl, Memory.readBytes_writeBytes_same]

theorem State.storeChain_aesIv (s : State) {out : List Byte × List Byte} (hiv : out.2.length = 16) :
    Memory.readBytes (s.storeChain out).mem Win.aesIv 16 = out.2 := by
  rw [← hiv]
  exact Memory.readBytes_writeBytes_same _ _ _

/-- Completing after the store changes no byte outside the operand and AES_IV, and no register. -/
theorem State.frameMem_storeChain (s : State) {out : List Byte × List Byte} (hl : out.1.length = s.len)
    (hiv : out.2.length = 16) :
    FrameMem (fun a => Span (Win.data + s.off) s.len a ∨ Span Win.aesIv 16 a) s ((s.storeChain out).finish .ok) := by
  refine ⟨rfl, fun a outside => ?_⟩
  obtain ⟨outsideData, outsideIv⟩ := not_or.mp outside
  unfold Span at outsideData outsideIv
  calc Memory.read (s.storeChain out).mem a
      = Memory.read (Memory.writeBytes s.mem (Win.data + s.off) out.1) a :=
        Memory.read_writeBytes_outside _ _ (by rw [hiv]; omega)
    _ = Memory.read s.mem a := Memory.read_writeBytes_outside _ _ (by rw [hl]; omega)

end

/-- Settles O34. -/
theorem aesCbcEncChainsTheBlocks : Obligations.AesCbcEncChainsTheBlocks := by
  intro k s
  refine ⟨fun h => exec_aesCbcEnc_of_fails (cbcCheck_of_noKey h),
    fun key h => exec_aesCbcEnc_of_fails (cbcCheck_of_range key h),
    fun key hr h => exec_aesCbcEnc_of_fails (cbcCheck_of_align key hr h), fun key hr whole => ?_⟩
  have length : (s.cbcEncrypted k).1.length = s.len := State.cbcEncrypted_length whole
  have lastLength : (s.cbcEncrypted k).2.length = 16 := State.cbcEncrypted_last_length
  have data := s.storeChain_data length lastLength
  refine ⟨_, exec_aesCbcEnc_of_passes (cbcCheck_eq_none.mpr ⟨key, hr, whole⟩),
    s.frameMem_storeChain length lastLength, fun j hj => ?blocks, ?iv⟩
  case blocks =>
    rw [State.finish_mem, ← blockAt_readBytes _ _ hj, ← blockAt_readBytes _ _ hj,
      ← blockBefore_readBytes _ _ _ hj.le, data]
    exact cbcEncrypt_blockAt _ _ _ hj
  case iv =>
    rw [State.finish_mem, ← blockBefore_readBytes_last _ _ _ whole, data, s.storeChain_aesIv lastLength]
    exact cbcEncrypt_last _ _ _ _

/-- Settles O35. -/
theorem aesCbcDecUnchainsTheBlocks : Obligations.AesCbcDecUnchainsTheBlocks := by
  intro k s
  refine ⟨fun h => exec_aesCbcDec_of_fails (cbcCheck_of_noKey h),
    fun key h => exec_aesCbcDec_of_fails (cbcCheck_of_range key h),
    fun key hr h => exec_aesCbcDec_of_fails (cbcCheck_of_align key hr h), fun key hr whole => ?_⟩
  have length : (s.cbcDecrypted k).1.length = s.len := State.cbcDecrypted_length whole
  have lastLength : (s.cbcDecrypted k).2.length = 16 := State.cbcDecrypted_last_length
  have data := s.storeChain_data length lastLength
  refine ⟨_, exec_aesCbcDec_of_passes (cbcCheck_eq_none.mpr ⟨key, hr, whole⟩),
    s.frameMem_storeChain length lastLength, fun j hj => ?blocks, ?iv⟩
  case blocks =>
    rw [State.finish_mem, ← blockAt_readBytes _ _ hj, ← blockAt_readBytes _ _ hj,
      ← blockBefore_readBytes _ _ _ hj.le, data]
    exact cbcDecrypt_blockAt _ s.aesIvBytes_length s.operand_whole hj
  case iv =>
    rw [State.finish_mem, ← blockBefore_readBytes_last _ _ _ whole, s.storeChain_aesIv lastLength]
    exact cbcDecrypt_last _ _ _ _

/-- Settles O36: AES_CBCDEC finds the ciphertext in DATA and the first vector in AES_IV. -/
theorem cbcDecUndoesCbcEnc : Obligations.CbcDecUndoesCbcEnc := by
  intro k s key hr whole
  have length : (s.cbcEncrypted k).1.length = s.len := State.cbcEncrypted_length whole
  have lastLength : (s.cbcEncrypted k).2.length = 16 := State.cbcEncrypted_last_length
  set t := (s.storeChain (s.cbcEncrypted k)).finish .ok
  set r := t.writeWindow Win.aesIv s.aesIvBytes
  have operand : r.operand s.len = (s.cbcEncrypted k).1 := by
    have below : Win.aesIv + s.aesIvBytes.length ≤ Win.data + s.off := aesIv_below_data s.off
    exact (Memory.readBytes_writeBytes_apart _ _ (.inr below)).trans (s.storeChain_data length lastLength)
  have iv : r.aesIvBytes = s.aesIvBytes := by
    have stored := Memory.readBytes_writeBytes_same t.mem Win.aesIv s.aesIvBytes
    rwa [s.aesIvBytes_length] at stored
  have plain : (r.cbcDecrypted k).1 = s.operand s.len :=
    calc (r.cbcDecrypted k).1
        = (cbcDecrypt (s.slot k).rk (s.len / 16) r.aesIvBytes (r.operand s.len)).1 := rfl
      _ = s.operand s.len := by
        rw [iv, operand]
        exact cbcDecrypt_cbcEncrypt _ s.aesIvBytes_length (by rw [State.operand_length]; omega)
  have data := r.storeChain_data (State.cbcDecrypted_length (k := k) whole) State.cbcDecrypted_last_length
  exact ⟨t, _, exec_aesCbcEnc_of_passes (cbcCheck_eq_none.mpr ⟨key, hr, whole⟩),
    exec_aesCbcDec_of_passes (cbcCheck_eq_none.mpr ⟨key, hr, whole⟩), rfl, data.trans plain⟩

end Sys2Proof.Machine
end

section
/-! PROOFS. The GHASH product (`43_gcm.md` R119): its loop is additive in both arguments, so the product is linear
in each, and the block `80 00 .. 00` selects the other argument at the first bit only. -/

namespace Sys2Proof.Machine

open Sys2Proof

/-! ### One round -/

/-- What a bit selects of a block is additive in the bit. -/
theorem ite_bit_xor_block (p q : Bool) (a : Block) :
    (if p ^^ q then a else 0) = (if p then a else 0) ^^^ (if q then a else 0) := by
  cases p <;> cases q <;> simp

/-- What a bit selects is additive in the block selected. -/
theorem ite_block_xor (p : Bool) (a a' : Block) :
    (if p then a ^^^ a' else 0) = (if p then a else 0) ^^^ (if p then a' else 0) := by
  cases p <;> simp

/-- The shift of R119 is one sum, the second term selected by the bit shifted out. -/
theorem ghashShift_eq (v : Block) :
    ghashShift v = (v >>> 1) ^^^ (if v.getLsbD 0 then (0xE1 <<< 120 : Block) else 0) := by
  unfold ghashShift
  split
  · rfl
  · exact BitVec.xor_zero.symm

theorem ghashShift_xor (v v' : Block) : ghashShift (v ^^^ v') = ghashShift v ^^^ ghashShift v' := by
  simp only [ghashShift_eq, BitVec.ushiftRight_xor_distrib, BitVec.getLsbD_xor, ite_bit_xor_block]
  ac_rfl

/-- A round adds what the next bit of `X` selects. -/
theorem ghashMulLoop_succ (x : Block) (k : Nat) (z v : Block) :
    ghashMulLoop x (k + 1) z v = ghashMulLoop x k (z ^^^ if x.getLsbD k then v else 0) (ghashShift v) := by
  rw [ghashMulLoop]
  split
  · rfl
  · exact congrArg (ghashMulLoop x k · _) BitVec.xor_zero.symm

/-! ### The loop -/

theorem ghashMulLoop_xor_left (x x' : Block) (k : Nat) (z z' v : Block) :
    ghashMulLoop (x ^^^ x') k (z ^^^ z') v = ghashMulLoop x k z v ^^^ ghashMulLoop x' k z' v := by
  induction k generalizing z z' v with
  | zero => rfl
  | succ k ih =>
      simp only [ghashMulLoop_succ, BitVec.getLsbD_xor, ite_bit_xor_block, ← ih]
      congr 1
      ac_rfl

theorem ghashMulLoop_xor_right (x : Block) (k : Nat) (z z' v v' : Block) :
    ghashMulLoop x k (z ^^^ z') (v ^^^ v') = ghashMulLoop x k z v ^^^ ghashMulLoop x k z' v' := by
  induction k generalizing z z' v v' with
  | zero => rfl
  | succ k ih =>
      simp only [ghashMulLoop_succ, ghashShift_xor, ite_block_xor, ← ih]
      congr 1
      ac_rfl

/-- Rounds over zero bits of `X` add nothing. -/
theorem ghashMulLoop_of_zero_bits {x : Block} {k : Nat} (zero : ∀ i < k, x.getLsbD i = false) (z v : Block) :
    ghashMulLoop x k z v = z := by
  induction k generalizing z v with
  | zero => rfl
  | succ k ih =>
      rw [ghashMulLoop, zero k k.lt_succ_self]
      exact ih (fun i hi => zero i (Nat.lt_succ_of_lt hi)) _ _

/-! ### The product -/

/-- The block `80 00 .. 00` holds its first bit only. -/
theorem getLsbD_identityBlock (i : Nat) : BitVec.getLsbD ((1 <<< 127 : Nat) : Block) i = decide (127 = i) := by
  rw [BitVec.natCast_eq_ofNat, BitVec.getLsbD_ofNat, Nat.one_shiftLeft, Nat.testBit_two_pow, Bool.and_eq_right_iff_imp]
  intro h
  have := of_decide_eq_true h
  exact decide_eq_true (by omega)

theorem ghashMul_identity_left (y : Block) : ghashMul (1 <<< 127) y = y := by
  rw [ghashMul, ghashMulLoop_succ, getLsbD_identityBlock, ghashMulLoop_of_zero_bits]
  · exact BitVec.zero_xor
  · intro i hi
    rw [getLsbD_identityBlock, decide_eq_false hi.ne']

/-- Settles O37: the accumulator 0 is the sum of two accumulators 0. -/
theorem ghashProductIsBilinear : Obligations.GhashProductIsBilinear :=
  ⟨fun x y z => ghashMulLoop_xor_left x y 128 0 0 z, fun x y z => ghashMulLoop_xor_right x 128 0 0 y z,
    ghashMul_identity_left⟩

end Sys2Proof.Machine
end

section
/-! PROOFS. Counter mode and the tag test on byte strings (`43_gcm.md` R121, R125): the keystream byte by byte, and
that counter mode undoes itself. -/

namespace Sys2Proof.Machine

open Sys2Proof

/-! ### The counter blocks -/

theorem bytesBe_ofNat (v : Nat) : bytesBe (BitVec.ofNat 32 v) = toBytes v 4 := by
  have byte (i : Nat) (h : i + 8 ≤ 32) : (BitVec.ofNat 32 v).extractLsb' i 8 = BitVec.ofNat 8 (v >>> i) := by
    apply BitVec.eq_of_getLsbD_eq
    intro j hj
    have inWord : i + j < 32 := by omega
    simp only [BitVec.getLsbD_extractLsb', BitVec.getLsbD_ofNat, Nat.testBit_shiftRight, decide_true,
      Bool.true_and, hj, inWord]
  rw [bytesBe, byte 24 (by decide), byte 16 (by decide), byte 8 (by decide), byte 0 (by decide)]
  rfl

/-- Splitting a word into its bytes and joining them. -/
theorem wordBeAt_bytesBe (w : Word) : wordBeAt (bytesBe w) 0 = w :=
  calc wordBeAt (bytesBe w) 0
      = w.extractLsb' 24 8 ++ w.extractLsb' 16 8 ++ w.extractLsb' 8 8 ++ w.extractLsb' 0 8 := rfl
    _ = w.extractLsb' 0 32 := by
      rw [BitVec.extractLsb'_append_extractLsb'_eq_extractLsb' (by decide),
        BitVec.extractLsb'_append_extractLsb'_eq_extractLsb' (by decide),
        BitVec.extractLsb'_append_extractLsb'_eq_extractLsb' (by decide)]
    _ = w := BitVec.extractLsb'_eq_self

/-- The word behind `n` other bytes. -/
theorem wordBeAt_append {a : List Byte} (s : List Byte) {n : Nat} (h : a.length = n) :
    wordBeAt (a ++ s) n = wordBeAt s 0 := by
  have byte (i : Nat) : (a ++ s).getD (n + i) 0 = s.getD i 0 := by
    rw [List.getD_append_right _ _ _ _ (by omega), h, Nat.add_sub_cancel_left]
  have first : (a ++ s).getD n 0 = s.getD 0 0 := byte 0
  simp only [wordBeAt, byte, first, Nat.zero_add]

/-- The counter of a counter block goes up by one. -/
theorem inc32_counter {iv : List Byte} (hiv : iv.length = 12) (c : Nat) :
    inc32 (iv ++ toBytes c 4) = iv ++ toBytes (c + 1) 4 := by
  rw [← bytesBe_ofNat, ← bytesBe_ofNat, inc32, wordBeAt_append _ hiv, wordBeAt_bytesBe, List.take_left' hiv,
    BitVec.ofNat_add]
  rfl

theorem preCounter_eq (iv : List Byte) : preCounter iv = iv ++ toBytes 1 4 := rfl

/-! ### The keystream -/

theorem xorBytes_getD {a b : List Byte} {j : Nat} (ha : j < a.length) (hb : j < b.length) :
    (xorBytes a b).getD j 0 = a.getD j 0 ^^^ b.getD j 0 := by
  simp [xorBytes, List.getD_eq_getElem?_getD, ha, hb]

/-- Byte `j` of counter mode from the counter `c` on: the keystream block `j div 16` has the counter `c + j div 16`. -/
theorem gctrLoop_getD (w : RoundKeys) {iv : List Byte} (hiv : iv.length = 12) {n : Nat} (c : Nat) {s : List Byte}
    {j : Nat} (hn : s.length ≤ 16 * n) (hj : j < s.length) :
    (gctrLoop w n (iv ++ toBytes c 4) s).getD j 0 =
      s.getD j 0 ^^^ (aesEncrypt w (iv ++ toBytes (c + j / 16) 4)).getD (j % 16) 0 := by
  induction n generalizing c s j with
  | zero => omega
  | succ n ih =>
      have head : (xorBytes (s.take 16) (aesEncrypt w (iv ++ toBytes c 4))).length = min 16 s.length := by
        rw [xorBytes_length, aesEncrypt_length, List.length_take]
        omega
      have byte (i : Nat) (h : i < 16) : (s.take 16).getD i 0 = s.getD i 0 := by
        simp [List.getD_eq_getElem?_getD, List.getElem?_take_of_lt h]
      rw [gctrLoop, inc32_counter hiv]
      by_cases first : j < 16
      · rw [List.getD_append _ _ _ _ (by omega), xorBytes_getD (by rw [List.length_take]; omega) first, byte j first,
          Nat.div_eq_of_lt first, Nat.mod_eq_of_lt first, Nat.add_zero]
      · obtain ⟨i, rfl⟩ := Nat.exists_eq_add_of_le (not_lt.mp first)
        rw [List.getD_append_right _ _ _ _ (by omega), head, Nat.min_eq_left (by omega), Nat.add_sub_cancel_left,
          ih (c + 1) (by rw [List.length_drop]; omega) (by rw [List.length_drop]; omega), Nat.add_mod_left,
          Nat.add_div_left _ (by decide), Nat.add_right_comm, Nat.add_assoc c]
        simp [List.getD_eq_getElem?_getD]

/-- The payload is encrypted from the counter 2 on (R121). -/
theorem gcmCrypt_getD (w : RoundKeys) {iv s : List Byte} (hiv : iv.length = 12) {j : Nat} (hj : j < s.length) :
    (gcmCrypt w iv s).getD j 0 =
      s.getD j 0 ^^^ (aesEncrypt w (iv ++ toBytes (2 + j / 16) 4)).getD (j % 16) 0 := by
  rw [gcmCrypt, preCounter_eq, inc32_counter hiv]
  exact gctrLoop_getD w hiv 2 (by omega) hj

/-- Two byte strings of one length with the same bytes are equal. -/
theorem ext_getD {a b : List Byte} (length : a.length = b.length) (h : ∀ j < a.length, a.getD j 0 = b.getD j 0) :
    a = b := by
  apply List.ext_getElem length
  intro j ha hb
  have := h j ha
  rwa [List.getD_eq_getElem _ _ ha, List.getD_eq_getElem _ _ hb] at this

/-- Counter mode adds the same keystream both times. -/
theorem gcmCrypt_gcmCrypt (w : RoundKeys) {iv : List Byte} (hiv : iv.length = 12) (s : List Byte) :
    gcmCrypt w iv (gcmCrypt w iv s) = s := by
  apply ext_getD (by rw [gcmCrypt_length, gcmCrypt_length])
  intro j hj
  rw [gcmCrypt_length] at hj
  rw [gcmCrypt_getD w hiv hj, gcmCrypt_getD w hiv (by rwa [gcmCrypt_length] at hj), BitVec.xor_assoc, BitVec.xor_self]
  exact BitVec.xor_zero

/-! ### The tag test -/

theorem foldl_or_eq_zero_iff (l : List Byte) (a : Byte) : l.foldl (· ||| ·) a = 0 ↔ a = 0 ∧ ∀ b ∈ l, b = 0 := by
  induction l generalizing a with
  | nil => simp
  | cons b l ih =>
      rw [List.foldl_cons, ih, List.forall_mem_cons, ← and_assoc]
      exact and_congr_left' BitVec.or_eq_zero_iff

/-- The OR over the byte differences is 0 exactly where every byte is equal (R125). -/
theorem tagDifference_eq_zero_iff {t tag : List Byte} (length : t.length = tag.length) :
    tagDifference t tag = 0 ↔ t = tag := by
  rw [tagDifference, foldl_or_eq_zero_iff, and_iff_right rfl]
  induction t generalizing tag with
  | nil => simp [xorBytes, List.length_eq_zero_iff.mp length.symm]
  | cons x t ih =>
      obtain ⟨y, tag, rfl⟩ := List.exists_cons_of_length_eq_add_one length.symm
      rw [xorBytes, List.zipWith_cons_cons, List.forall_mem_cons, List.cons_eq_cons]
      exact and_congr BitVec.xor_eq_zero_iff (ih (Nat.succ.inj length))

end Sys2Proof.Machine
end

section
/-! PROOFS. GCM_ENC and GCM_DEC: the checks in order, and what each command leaves behind (`43_gcm.md` R124, R125). -/

namespace Sys2Proof.Machine

open Sys2Proof

variable {s : State} {k : Slot} {e : ErrCode}

/-! ### What the commands compute -/

/-- The operand in counter mode: the ciphertext of GCM_ENC, the plaintext of GCM_DEC. -/
def State.gcmCrypted (s : State) (k : Slot) : List Byte :=
  gcmCrypt (s.slot k).rk (s.nonceBytes k) (s.operand s.len)

/-- The tag of the ciphertext `c` under the slot's key and nonce, over the AAD. -/
def State.gcmTagOver (s : State) (k : Slot) (c : List Byte) : List Byte :=
  gcmTag (s.slot k).rk (s.nonceBytes k) s.aadBytes c

/-- The tag GCM_DEC expects. -/
def State.gcmExpectedTag (s : State) (k : Slot) : List Byte := s.gcmTagOver k (s.operand s.len)

@[simp] theorem State.gcmExpectedTag_length (s : State) (k : Slot) : (s.gcmExpectedTag k).length = 16 :=
  gcmTag_length _ _ _ _

/-- What GCM_ENC has written before it completes: the ciphertext at DATA_OFF, TAG, and the slot's NU. -/
def State.storeSealed (s : State) (k : Slot) (c tag : List Byte) : State :=
  ((s.dataWrite s.off c).writeWindow Win.tag tag).setNu k true

/-- The state GCM_DEC leaves behind, before its completion step. -/
def State.gcmOpened (s : State) (k : Slot) : State := s.dataWrite s.off (s.gcmCrypted k)

@[simp] theorem State.gcmCrypted_length (s : State) (k : Slot) : (s.gcmCrypted k).length = s.len := by
  rw [State.gcmCrypted, gcmCrypt_length, State.operand_length]

@[simp] theorem State.gcmTagOver_length (s : State) (k : Slot) (c : List Byte) : (s.gcmTagOver k c).length = 16 :=
  gcmTag_length _ _ _ _

@[simp] theorem State.nonceBytes_length (s : State) (k : Slot) : (s.nonceBytes k).length = 12 :=
  Memory.readBytes_length _ _ _

@[simp] theorem State.tagBytes_length (s : State) : s.tagBytes.length = 16 := Memory.readBytes_length _ _ _

/-! ### The checks in order -/

/-- The checks of GCM_ENC: the first that fails. -/
def State.gcmEncCheck (s : State) (k : Slot) : Option ErrCode :=
  if !(s.slot k).kv then some .noKey
  else if (s.slot k).nu then some .nonce
  else if 16384 < s.off + s.len ∨ 64 < s.aadLen.toNat then some .range
  else none

/-- The checks of GCM_DEC: the first that fails. -/
def State.gcmDecCheck (s : State) (k : Slot) : Option ErrCode :=
  if !(s.slot k).kv then some .noKey
  else if 16384 < s.off + s.len ∨ 64 < s.aadLen.toNat then some .range
  else if tagDifference (s.gcmExpectedTag k) s.tagBytes ≠ 0 then some .tag
  else none

/-- GCM_ENC fails by its checks or completes. -/
theorem exec_gcmEnc_eq (k : Slot) (s : State) :
    exec (.gcmEnc k) s = (s.gcmEncCheck k).elim
      (s.storeSealed k (s.gcmCrypted k) (s.gcmTagOver k (s.gcmCrypted k))).complete s.fail := by
  unfold exec execGcmEnc State.gcmEncCheck
  simp only [not_inRange_iff, ite_or]
  split_ifs <;> rfl

/-- GCM_DEC fails by its checks or completes. -/
theorem exec_gcmDec_eq (k : Slot) (s : State) :
    exec (.gcmDec k) s = (s.gcmDecCheck k).elim (s.gcmOpened k).complete s.fail := by
  unfold exec execGcmDec State.gcmDecCheck State.gcmExpectedTag State.gcmTagOver
  simp only [not_inRange_iff, ite_or]
  split_ifs <;> rfl

theorem exec_gcmEnc_of_fails (h : s.gcmEncCheck k = some e) : FailsWith (.gcmEnc k) s e := by
  rw [FailsWith, exec_gcmEnc_eq, h]
  rfl

theorem exec_gcmEnc_of_passes (h : s.gcmEncCheck k = none) :
    exec (.gcmEnc k) s = .next ((s.storeSealed k (s.gcmCrypted k) (s.gcmTagOver k (s.gcmCrypted k))).finish .ok) := by
  rw [exec_gcmEnc_eq, h]
  rfl

theorem exec_gcmDec_of_fails (h : s.gcmDecCheck k = some e) : FailsWith (.gcmDec k) s e := by
  rw [FailsWith, exec_gcmDec_eq, h]
  rfl

theorem exec_gcmDec_of_passes (h : s.gcmDecCheck k = none) :
    exec (.gcmDec k) s = .next ((s.gcmOpened k).finish .ok) := by
  rw [exec_gcmDec_eq, h]
  rfl

/-! ### Which check fails -/

theorem gcmEncCheck_of_noKey (h : (s.slot k).kv = false) : s.gcmEncCheck k = some .noKey := by
  simp only [State.gcmEncCheck, h, Bool.not_false, if_true]

theorem gcmEncCheck_of_used (key : (s.slot k).kv = true) (h : (s.slot k).nu = true) :
    s.gcmEncCheck k = some .nonce := by
  rw [State.gcmEncCheck, key, h, if_neg (by decide), if_pos rfl]

theorem gcmEncCheck_of_range (key : (s.slot k).kv = true) (fresh : (s.slot k).nu = false)
    (h : 16384 < s.off + s.len ∨ 64 < s.aadLen.toNat) : s.gcmEncCheck k = some .range := by
  rw [State.gcmEncCheck, key, fresh, if_neg (by decide), if_neg (by decide), if_pos h]

theorem gcmEncCheck_eq_none : s.gcmEncCheck k = none ↔
    (s.slot k).kv = true ∧ (s.slot k).nu = false ∧ s.off + s.len ≤ 16384 ∧ s.aadLen.toNat ≤ 64 := by
  unfold State.gcmEncCheck
  cases (s.slot k).kv
  · simp
  · cases (s.slot k).nu <;> simp [not_or]

theorem gcmDecCheck_of_noKey (h : (s.slot k).kv = false) : s.gcmDecCheck k = some .noKey := by
  simp only [State.gcmDecCheck, h, Bool.not_false, if_true]

theorem gcmDecCheck_of_range (key : (s.slot k).kv = true) (h : 16384 < s.off + s.len ∨ 64 < s.aadLen.toNat) :
    s.gcmDecCheck k = some .range := by
  rw [State.gcmDecCheck, key, if_neg (by decide), if_pos h]

/-- Every byte of the two tags is compared (R125). -/
theorem State.gcmTagDifference_eq_zero_iff :
    tagDifference (s.gcmExpectedTag k) s.tagBytes = 0 ↔ s.tagBytes = s.gcmExpectedTag k :=
  (tagDifference_eq_zero_iff ((s.gcmExpectedTag_length k).trans s.tagBytes_length.symm)).trans eq_comm

theorem gcmDecCheck_of_inRange (key : (s.slot k).kv = true) (hr : s.off + s.len ≤ 16384) (ha : s.aadLen.toNat ≤ 64) :
    s.gcmDecCheck k = if s.tagBytes = s.gcmExpectedTag k then none else some .tag := by
  have inside : ¬ (16384 < s.off + s.len ∨ 64 < s.aadLen.toNat) := by omega
  rw [State.gcmDecCheck, key, if_neg (by decide), if_neg inside, ite_not]
  simp only [State.gcmTagDifference_eq_zero_iff]

theorem gcmDecCheck_of_tag (key : (s.slot k).kv = true) (hr : s.off + s.len ≤ 16384) (ha : s.aadLen.toNat ≤ 64)
    (h : s.tagBytes ≠ s.gcmExpectedTag k) : s.gcmDecCheck k = some .tag :=
  (gcmDecCheck_of_inRange key hr ha).trans (if_neg h)

theorem gcmDecCheck_of_match (key : (s.slot k).kv = true) (hr : s.off + s.len ≤ 16384) (ha : s.aadLen.toNat ≤ 64)
    (h : s.tagBytes = s.gcmExpectedTag k) : s.gcmDecCheck k = none :=
  (gcmDecCheck_of_inRange key hr ha).trans (if_pos h)

/-! ### What stores leave of the operands

TAG lies apart from the nonces, the AAD and DATA; DATA lies above the nonces and the AAD (`10_state.md` R21). -/

theorem gcmIv_below_tag (k : Slot) : Win.gcmIv k + 12 ≤ Win.tag := by cases k <;> decide

theorem gcmIv_below_data (k : Slot) (off : Nat) : Win.gcmIv k + 12 ≤ Win.data + off :=
  Nat.le_add_right_of_le (by cases k <;> decide)

theorem tag_below_data (off : Nat) : Win.tag + 16 ≤ Win.data + off := Nat.le_add_right_of_le (by decide)

section
variable {tag : List Byte}

theorem State.nonceBytes_writeTag (s : State) (k : Slot) : (s.writeWindow Win.tag tag).nonceBytes k = s.nonceBytes k :=
  Memory.readBytes_writeBytes_apart _ _ (.inl (gcmIv_below_tag k))

variable (length : tag.length = 16)
include length

theorem State.aadBytes_writeTag (s : State) : (s.writeWindow Win.tag tag).aadBytes = s.aadBytes :=
  Memory.readBytes_writeBytes_apart _ _ (.inr (by rw [length]; decide))

theorem State.operand_writeTag (s : State) (n : Nat) : (s.writeWindow Win.tag tag).operand n = s.operand n :=
  Memory.readBytes_writeBytes_apart _ _ (.inr (by rw [length]; exact tag_below_data s.off))

theorem State.tagBytes_writeTag (s : State) : (s.writeWindow Win.tag tag).tagBytes = tag := by
  have stored := Memory.readBytes_writeBytes_same s.mem Win.tag tag
  rwa [length] at stored

/-- The tag expected does not depend on the tag stored. -/
theorem State.gcmExpectedTag_writeTag (s : State) (k : Slot) :
    (s.writeWindow Win.tag tag).gcmExpectedTag k = s.gcmExpectedTag k :=
  calc (s.writeWindow Win.tag tag).gcmExpectedTag k
      = gcmTag (s.slot k).rk ((s.writeWindow Win.tag tag).nonceBytes k) (s.writeWindow Win.tag tag).aadBytes
          ((s.writeWindow Win.tag tag).operand s.len) := rfl
    _ = s.gcmExpectedTag k := by
      rw [s.nonceBytes_writeTag, s.aadBytes_writeTag length, s.operand_writeTag length]
      rfl

end

theorem State.nonceBytes_dataWrite (s : State) (k : Slot) (bs : List Byte) :
    (s.dataWrite s.off bs).nonceBytes k = s.nonceBytes k :=
  Memory.readBytes_writeBytes_apart _ _ (.inl (gcmIv_below_data k s.off))

theorem State.aadBytes_dataWrite (ha : s.aadLen.toNat ≤ 64) (bs : List Byte) :
    (s.dataWrite s.off bs).aadBytes = s.aadBytes := by
  have below : Win.aad + s.aadLen.toNat ≤ Win.data + s.off :=
    (Nat.add_le_add_left ha _).trans (Nat.le_add_right_of_le (by decide))
  exact Memory.readBytes_writeBytes_apart _ _ (.inl below)

theorem State.operand_dataWrite (s : State) {bs : List Byte} (length : bs.length = s.len) :
    (s.dataWrite s.off bs).operand s.len = bs := by
  rw [← length]
  exact Memory.readBytes_writeBytes_same _ _ _

/-! ### What GCM_ENC leaves behind -/

theorem State.storeSealed_frame (s : State) (k : Slot) (c tag : List Byte) :
    s.storeSealed k c tag =
      { s with mem := (s.storeSealed k c tag).mem, slots := (s.storeSealed k c tag).slots } := rfl

theorem State.storeSealed_slot_same (s : State) (k : Slot) (c tag : List Byte) :
    (s.storeSealed k c tag).slot k = { s.slot k with nu := true } :=
  State.slot_setSlot_same _ k _

theorem State.storeSealed_slot_other (s : State) {j k : Slot} (c tag : List Byte) (other : j ≠ k) :
    (s.storeSealed k c tag).slot j = s.slot j :=
  State.slot_setSlot_other _ _ other

section
variable {c tag : List Byte}

theorem State.storeSealed_nonceBytes (s : State) (k : Slot) (c tag : List Byte) :
    (s.storeSealed k c tag).nonceBytes k = s.nonceBytes k :=
  (State.nonceBytes_writeTag _ k).trans (s.nonceBytes_dataWrite k c)

theorem State.storeSealed_tagBytes (s : State) (k : Slot) (c : List Byte) (ht : tag.length = 16) :
    (s.storeSealed k c tag).tagBytes = tag :=
  State.tagBytes_writeTag ht _

theorem State.storeSealed_aadBytes (k : Slot) (c : List Byte) (ht : tag.length = 16) (ha : s.aadLen.toNat ≤ 64) :
    (s.storeSealed k c tag).aadBytes = s.aadBytes :=
  (State.aadBytes_writeTag ht _).trans (State.aadBytes_dataWrite ha c)

theorem State.storeSealed_operand (k : Slot) (hc : c.length = s.len) (ht : tag.length = 16) :
    (s.storeSealed k c tag).operand s.len = c :=
  (State.operand_writeTag ht _ s.len).trans (s.operand_dataWrite hc)

theorem State.read_storeSealed_outside (k : Slot) (hc : c.length = s.len) (ht : tag.length = 16) {a : Nat}
    (outsideData : ¬ Span (Win.data + s.off) s.len a) (outsideTag : ¬ Span Win.tag 16 a) :
    Memory.read (s.storeSealed k c tag).mem a = Memory.read s.mem a := by
  unfold Span at outsideData outsideTag
  calc Memory.read (s.storeSealed k c tag).mem a
      = Memory.read (Memory.writeBytes s.mem (Win.data + s.off) c) a :=
        Memory.read_writeBytes_outside _ _ (by rw [ht]; omega)
    _ = Memory.read s.mem a := Memory.read_writeBytes_outside _ _ (by rw [hc]; omega)

/-- GCM_DEC expects the tag over the ciphertext stored. -/
theorem State.storeSealed_expectedTag (k : Slot) (hc : c.length = s.len) (ht : tag.length = 16)
    (ha : s.aadLen.toNat ≤ 64) : (s.storeSealed k c tag).gcmExpectedTag k = s.gcmTagOver k c :=
  calc (s.storeSealed k c tag).gcmExpectedTag k
      = gcmTag ((s.storeSealed k c tag).slot k).rk ((s.storeSealed k c tag).nonceBytes k)
          (s.storeSealed k c tag).aadBytes ((s.storeSealed k c tag).operand s.len) := rfl
    _ = s.gcmTagOver k c := by
      rw [s.storeSealed_slot_same, s.storeSealed_nonceBytes, State.storeSealed_aadBytes k c ht ha,
        State.storeSealed_operand k hc ht]
      rfl

/-- GCM_DEC puts the ciphertext stored in counter mode. -/
theorem State.storeSealed_crypted (k : Slot) (hc : c.length = s.len) (ht : tag.length = 16) :
    (s.storeSealed k c tag).gcmCrypted k = gcmCrypt (s.slot k).rk (s.nonceBytes k) c :=
  calc (s.storeSealed k c tag).gcmCrypted k
      = gcmCrypt ((s.storeSealed k c tag).slot k).rk ((s.storeSealed k c tag).nonceBytes k)
          ((s.storeSealed k c tag).operand s.len) := rfl
    _ = gcmCrypt (s.slot k).rk (s.nonceBytes k) c := by
      rw [s.storeSealed_slot_same, s.storeSealed_nonceBytes, State.storeSealed_operand k hc ht]

end

/-! ### What GCM_DEC answers with -/

/-- Any other tag in place of a matching one fails the test. -/
theorem exec_gcmDec_of_tampered {s : State} {k : Slot} (key : (s.slot k).kv = true) (hr : s.off + s.len ≤ 16384)
    (ha : s.aadLen.toNat ≤ 64) (h : s.tagBytes = s.gcmExpectedTag k) {tag : List Byte} (length : tag.length = 16)
    (differs : tag ≠ s.tagBytes) : FailsWith (.gcmDec k) (s.writeWindow Win.tag tag) .tag := by
  refine exec_gcmDec_of_fails (gcmDecCheck_of_tag key hr ha ?_)
  rwa [State.tagBytes_writeTag length, State.gcmExpectedTag_writeTag length, ← h]

theorem State.gcmOpened_operand (s : State) (k : Slot) : (s.gcmOpened k).operand s.len = s.gcmCrypted k :=
  s.operand_dataWrite (s.gcmCrypted_length k)

/-! ### The bytes stored in DATA -/

/-- Where the memory `m` holds the operand in counter mode, each byte is the operand's XORed with the keystream's. -/
theorem State.read_of_stored_gcmCrypted {m : Memory}
    (stored : Memory.readBytes m (Win.data + s.off) s.len = s.gcmCrypted k) {j : Nat} (hj : j < s.len) :
    Memory.read m (Win.data + s.off + j) = Memory.read s.mem (Win.data + s.off + j) ^^^
      (aesEncrypt (s.slot k).rk (s.nonceBytes k ++ toBytes (2 + j / 16) 4)).getD (j % 16) 0 := by
  have byte : (s.operand s.len).getD j 0 = Memory.read s.mem (Win.data + s.off + j) := Memory.readBytes_getD _ _ hj
  rw [← Memory.readBytes_getD m _ hj, stored, ← byte]
  exact gcmCrypt_getD _ (s.nonceBytes_length k) (by rwa [State.operand_length])

end Sys2Proof.Machine
end

section
/-! PROOFS. The statements about GCM_ENC and GCM_DEC (`43_gcm.md` R124, R125). -/

namespace Sys2Proof.Machine

open Sys2Proof

/-- Settles O38. -/
theorem gcmEncEncryptsTagsAndMarksTheNonce : Obligations.GcmEncEncryptsTagsAndMarksTheNonce := by
  intro k s w iv aad
  refine ⟨fun h => exec_gcmEnc_of_fails (gcmEncCheck_of_noKey h),
    fun key h => exec_gcmEnc_of_fails (gcmEncCheck_of_used key h),
    fun key fresh h => exec_gcmEnc_of_fails (gcmEncCheck_of_range key fresh h), fun key fresh hr ha => ?_⟩
  have ends := exec_gcmEnc_of_passes (gcmEncCheck_eq_none.mpr ⟨key, fresh, hr, ha⟩)
  have tagOver : s.gcmTagOver k (s.gcmCrypted k) = gcmTag w iv aad (s.gcmCrypted k) := rfl
  have byte (m : Memory) := State.read_of_stored_gcmCrypted (s := s) (k := k) (m := m)
  have hc := s.gcmCrypted_length k
  -- Only the sizes of the two byte strings matter from here on.
  generalize s.gcmCrypted k = c at ends tagOver byte hc
  have ht := s.gcmTagOver_length k c
  generalize s.gcmTagOver k c = tag at ends tagOver ht
  have data : Memory.readBytes (s.storeSealed k c tag).mem (Win.data + s.off) s.len = c :=
    State.storeSealed_operand k hc ht
  refine ⟨_, ends, congrArg (State.finish · .ok) (s.storeSealed_frame k c tag), s.storeSealed_slot_same k c tag,
    fun _ => s.storeSealed_slot_other c tag, fun _ => State.read_storeSealed_outside k hc ht,
    fun _ => byte _ data, ?tag⟩
  case tag =>
    rw [State.finish_mem, data]
    exact (s.storeSealed_tagBytes k c ht).trans tagOver

/-- Settles O39. -/
theorem gcmDecReleasesOnlyOnATagMatch : Obligations.GcmDecReleasesOnlyOnATagMatch := by
  intro k s w iv aad expected
  refine ⟨fun h => exec_gcmDec_of_fails (gcmDecCheck_of_noKey h),
    fun key h => exec_gcmDec_of_fails (gcmDecCheck_of_range key h),
    fun key hr ha h => exec_gcmDec_of_fails (gcmDecCheck_of_tag key hr ha h), fun key hr ha h => ?_⟩
  obtain ⟨t, ends, frame, stored⟩ := completes_with_data (s.gcmCrypted_length k)
    (exec_gcmDec_of_passes (gcmDecCheck_of_match key hr ha h))
  exact ⟨t, ends, frame, fun j hj => State.read_of_stored_gcmCrypted stored hj⟩

/-- Settles O40: GCM_DEC finds the ciphertext in DATA and expects the tag GCM_ENC stored. -/
theorem gcmRoundTripAndTamper : Obligations.GcmRoundTripAndTamper := by
  intro k s key fresh hr ha
  have ends := exec_gcmEnc_of_passes (gcmEncCheck_eq_none.mpr ⟨key, fresh, hr, ha⟩)
  have undo : gcmCrypt (s.slot k).rk (s.nonceBytes k) (s.gcmCrypted k) = s.operand s.len :=
    gcmCrypt_gcmCrypt _ (s.nonceBytes_length k) _
  have hc := s.gcmCrypted_length k
  generalize s.gcmCrypted k = c at ends undo hc
  have ht := s.gcmTagOver_length k c
  have expected := State.storeSealed_expectedTag k hc ht ha
  generalize s.gcmTagOver k c = tag at ends ht expected
  set t := (s.storeSealed k c tag).finish .ok
  have keyed : (t.slot k).kv = true := (congrArg KeySlot.kv (s.storeSealed_slot_same k c tag)).trans key
  have dataInRange : t.off + t.len ≤ 16384 := hr
  have aadInRange : t.aadLen.toNat ≤ 64 := ha
  have matching : t.tagBytes = t.gcmExpectedTag k := (s.storeSealed_tagBytes k c ht).trans expected.symm
  have plain : (t.gcmOpened k).operand t.len = s.operand s.len :=
    (t.gcmOpened_operand k).trans ((State.storeSealed_crypted k hc ht).trans undo)
  exact ⟨t, (t.gcmOpened k).finish .ok, ends,
    exec_gcmDec_of_passes (gcmDecCheck_of_match keyed dataInRange aadInRange matching), rfl, plain,
    fun _ => exec_gcmDec_of_tampered keyed dataInRange aadInRange matching⟩

end Sys2Proof.Machine
end

section
/-! PROOFS. The nonce-used flag (`43_gcm.md` R123). -/

namespace Sys2Proof.Machine

open Sys2Proof

/-! ### A second GCM_ENC -/

theorem gcmEncCheck_ne_ok {s : State} {k : Slot} {e : ErrCode} (h : s.gcmEncCheck k = some e) : e ≠ .ok := by
  unfold State.gcmEncCheck at h
  split_ifs at h <;> cases h <;> decide

/-- GCM_ENC ends with OK only where its checks pass. -/
theorem gcmEncCheck_of_ok {k : Slot} {s t : State} (h : exec (.gcmEnc k) s = .next t) (ok : t.err = .ok) :
    s.gcmEncCheck k = none := by
  cases check : s.gcmEncCheck k with
  | none => rfl
  | some e =>
      cases (exec_gcmEnc_of_fails check).symm.trans h
      exact absurd ok (gcmEncCheck_ne_ok check)

/-- A successful GCM_ENC leaves the slot with its key, and with its nonce used. -/
theorem slot_of_gcmEnc_ok {k : Slot} {s t : State} (h : exec (.gcmEnc k) s = .next t) (ok : t.err = .ok) :
    (t.slot k).kv = true ∧ (t.slot k).nu = true := by
  have check := gcmEncCheck_of_ok h ok
  obtain ⟨key, -⟩ := gcmEncCheck_eq_none.mp check
  cases (exec_gcmEnc_of_passes check).symm.trans h
  rw [State.slot_finish, State.storeSealed_slot_same]
  exact ⟨key, rfl⟩

/-! ### Writes of the nonce -/

/-- What stands at a word of a nonce. -/
theorem locate_nonceWord {k : Slot} {off : Nat} (h : Span (Win.gcmIv k) 12 off) : locate off = .nonceWord k off := by
  cases k <;> simp only [Span, Win.gcmIv, Win.gcmIv0, Win.gcmIv1] at h <;>
    simp (disch := omega) only [locate, inSpan_iff, Span, Win.gcmIv0, Win.gcmIv1, if_neg, if_pos]

/-- An idle write of a word of a nonce stores the word and clears the slot's NU. -/
theorem State.hostWrite_nonceWord {s : State} (idle : s.busy = false) {k : Slot} {off : Nat}
    (h : Span (Win.gcmIv k) 12 off) (v : Word) :
    s.hostWrite off v = (s.writeWindow off (wordToLanes v)).setNu k false := by
  rw [State.hostWrite_of_idle idle, State.idleWrite, locate_nonceWord h]

/-! ### GCM_DEC reads of a slot only its key -/

section
variable (s : State) (j k : Slot) (b : Bool)

theorem State.gcmExpectedTag_setNu : (s.setNu j b).gcmExpectedTag k = s.gcmExpectedTag k := by
  unfold State.gcmExpectedTag State.gcmTagOver
  rw [s.slot_setNu]
  rfl

theorem State.gcmCrypted_setNu : (s.setNu j b).gcmCrypted k = s.gcmCrypted k := by
  unfold State.gcmCrypted
  rw [s.slot_setNu]
  rfl

theorem State.gcmDecCheck_setNu : (s.setNu j b).gcmDecCheck k = s.gcmDecCheck k := by
  unfold State.gcmDecCheck
  rw [s.slot_setNu, s.gcmExpectedTag_setNu]
  rfl

theorem State.gcmOpened_setNu : (s.setNu j b).gcmOpened k = (s.gcmOpened k).setNu j b := by
  unfold State.gcmOpened
  rw [s.gcmCrypted_setNu]
  rfl

end

/-- GCM_DEC leaves the slots alone, and NU of every slot as it finds it. -/
theorem exec_gcmDec_setNu {s t : State} {k : Slot} (h : exec (.gcmDec k) s = .next t) :
    t.slots = s.slots ∧ ∀ (j : Slot) (b : Bool), exec (.gcmDec k) (s.setNu j b) = .next (t.setNu j b) := by
  cases check : s.gcmDecCheck k with
  | some e =>
      cases (exec_gcmDec_of_fails check).symm.trans h
      exact ⟨rfl, fun j b => exec_gcmDec_of_fails ((s.gcmDecCheck_setNu j k b).trans check)⟩
  | none =>
      cases (exec_gcmDec_of_passes check).symm.trans h
      refine ⟨rfl, fun j b => ?_⟩
      rw [exec_gcmDec_of_passes ((s.gcmDecCheck_setNu j k b).trans check), s.gcmOpened_setNu]
      rfl

/-- Settles O41. -/
theorem nonceUsedFlagDiscipline : Obligations.NonceUsedFlagDiscipline := by
  refine ⟨fun k s t h ok => ?secondEnc, fun k s off v idle _ word => ?nonceWrite, fun k s t h => ?keyExp,
    fun k => ?reset, fun k j s t h => ?dec⟩
  case secondEnc =>
    obtain ⟨key, used⟩ := slot_of_gcmEnc_ok h ok
    exact ⟨used, exec_gcmEnc_of_fails (gcmEncCheck_of_used key used)⟩
  case nonceWrite =>
    rw [State.hostWrite_nonceWord idle word, State.setNu_eq]
    exact ⟨congrArg KeySlot.nu (State.slot_setSlot_same _ k _), fun j other => State.slot_setSlot_other _ _ other⟩
  case keyExp =>
    obtain ⟨u, ends, -, -, fresh, -⟩ := aesKeyExpFollowsTheRecurrence k s
    cases ends.symm.trans h
    exact fresh
  case reset => cases k <;> rfl
  case dec =>
    obtain ⟨slots, same⟩ := exec_gcmDec_setNu h
    exact ⟨slots, same j⟩

end Sys2Proof.Machine
end

section
/-! PROOFS. Absorption and padding (`44_sha.md` R129, R130): a byte string is absorbed piece by piece, the counter
counts its bits, and the padding ends on a block boundary. -/

namespace Sys2Proof.Machine

open Sys2Proof

/-! ### Absorption -/

theorem absorb_append (c : ShaContext) (x y : List Byte) : absorb c (x ++ y) = absorb (absorb c x) y :=
  List.foldl_append

theorem absorbByte_cnt (c : ShaContext) (x : Byte) : (absorbByte c x).cnt = c.cnt + 8 := rfl

/-- The counter grows by 8 bits a byte modulo 2^64. -/
theorem toNat_absorb_cnt (c : ShaContext) (m : List Byte) :
    (absorb c m).cnt.toNat = (c.cnt.toNat + 8 * m.length) % 2 ^ 64 := by
  induction m generalizing c with
  | nil => exact (Nat.mod_eq_of_lt c.cnt.isLt).symm
  | cons x m ih =>
      have byte : (absorbByte c x).cnt.toNat = (c.cnt.toNat + 8) % 2 ^ 64 := BitVec.toNat_add c.cnt 8
      rw [absorb_cons, ih, byte, List.length_cons]
      omega

/-- The bytes pending are counted modulo the block. -/
theorem shaPending_absorb (c : ShaContext) (m : List Byte) :
    shaPending (absorb c m).cnt = (shaPending c.cnt + m.length) % 64 := by
  induction m generalizing c with
  | nil => exact (Nat.mod_eq_of_lt (shaPending_lt c.cnt)).symm
  | cons x m ih =>
      rw [absorb_cons, ih, absorbByte_cnt, shaPending_add_byte, List.length_cons]
      omega

/-! ### Padding -/

theorem shaPadding_length (cnt : Dword) : (shaPadding cnt).length = 9 + (119 - shaPending cnt) % 64 := by
  simp only [shaPadding, List.length_append, List.length_singleton, zeroBytes_length, toBytes_length]
  omega

/-- Settles O46: the padding's length makes the bytes pending a multiple of 64. -/
theorem paddingEndsOnABlock : Obligations.PaddingEndsOnABlock := by
  intro c
  have lt := shaPending_lt c.cnt
  have length := shaPadding_length c.cnt
  refine ⟨fun fits => ?one, fun full => ?two, ?none⟩
  case one => omega
  case two => omega
  case none =>
    rw [finishContext, shaPending_absorb]
    omega

/-! ### The digest -/

/-- Byte `j` of the digest: the state words in order, each high byte first. -/
theorem Hash8.bytes_getD (h : Hash8) {j : Nat} (hj : j < 32) :
    h.bytes.getD j 0 = (h.get (j / 4)).extractLsb' (8 * (3 - j % 4)) 8 := by
  interval_cases j <;> rfl

/-! ### HMAC's key block -/

/-- K0 with the length of the key written out (`44_sha.md` R136). -/
theorem hmacKeyBlock_of_length {key : List Byte} {n : Nat} (length : key.length = n) :
    hmacKeyBlock key = (if 64 < n then sha256 key else key) ++
      List.replicate (64 - (if 64 < n then sha256 key else key).length) 0 := by
  subst length
  rfl

/-- A key longer than a block and its hash have the same K0. -/
theorem hmacKeyBlock_sha256 {key : List Byte} (long : 64 < key.length) :
    hmacKeyBlock (sha256 key) = hmacKeyBlock key := by
  rw [hmacKeyBlock_of_length (sha256_length key), hmacKeyBlock_of_length rfl, if_neg (by decide), if_pos long]

theorem hmacSha256_sha256 {key : List Byte} (long : 64 < key.length) (msg : List Byte) :
    hmacSha256 (sha256 key) msg = hmacSha256 key msg := by
  unfold hmacSha256
  rw [hmacKeyBlock_sha256 long]

end Sys2Proof.Machine
end

section
/-! PROOFS. The states the SHA-256 commands leave behind, with the streaming context, the operand and the bytes of
memory in each (`44_sha.md` R131 to R133). -/

namespace Sys2Proof.Machine

open Sys2Proof

variable {s : State}

/-! ### Byte strings in the memory -/

theorem Memory.readBytes_add (m : Memory) (a n k : Nat) :
    Memory.readBytes m a (n + k) = Memory.readBytes m a n ++ Memory.readBytes m (a + n) k := by
  simp only [Memory.readBytes, List.range_add, List.map_append, List.map_map, Function.comp_def, Nat.add_assoc]

theorem Memory.read_writeBytes_zeros (m : Memory) (a : Nat) {n j : Nat} (h : j < n) :
    Memory.read (Memory.writeBytes m a (zeroBytes n)) (a + j) = 0 := by
  rw [Memory.read_writeBytes_inside _ _ (by rwa [zeroBytes_length]), zeroBytes, List.getD_replicate _ h]

/-! ### Storing a digest -/

section
variable {d : List Byte} (length : d.length = 32)
include length

theorem State.readBytes_setDigest (s : State) : Memory.readBytes (s.setDigest d).mem Win.digest 32 = d := by
  have stored := Memory.readBytes_writeBytes_same s.mem Win.digest d
  rwa [length] at stored

theorem State.read_setDigest_outside (s : State) {a : Nat} (outside : ¬ Span Win.digest 32 a) :
    Memory.read (s.setDigest d).mem a = Memory.read s.mem a :=
  Memory.read_writeBytes_outside _ _ (by rw [length]; unfold Span at outside; omega)

/-- SHA_BUF lies above DIGEST. -/
theorem State.shaContext_setDigest (s : State) : (s.setDigest d).shaContext = s.shaContext :=
  (Writes.digest (i := .shaOneShot) length .refl).shaContext_eq (by decide)

end

/-! ### Writing the streaming context back -/

/-- Writing a context back writes the context, its VALID flag and memory only. -/
theorem State.frame_setShaContext (s : State) (c : ShaContext) (valid : Bool) :
    FrameWith { s with mem := (s.setShaContext c valid).mem, shaH := c.h, shaCnt := c.cnt, shaValid := valid }
      ((s.setShaContext c valid).finish .ok) := rfl

/-- A context whose block is all zero leaves SHA_BUF zero. -/
theorem State.read_setShaContext_of_zeros (s : State) {c : ShaContext} (valid : Bool) (zeros : c.buf = zeroBytes 64)
    {j : Nat} (hj : j < 64) : Memory.read (s.setShaContext c valid).mem (Win.shaBuf + j) = 0 := by
  rw [State.setShaContext_mem, zeros]
  exact Memory.read_writeBytes_zeros _ _ hj

/-- DIGEST lies below SHA_BUF. -/
theorem State.readBytes_setShaContext_digest (s : State) (c : ShaContext) (valid : Bool) :
    Memory.readBytes (s.setShaContext c valid).mem Win.digest 32 = Memory.readBytes s.mem Win.digest 32 :=
  Memory.readBytes_writeBytes_apart _ _ (.inl (by decide))

section
variable {c : ShaContext} (length : c.buf.length = 64)
include length

theorem State.shaContext_setShaContext (s : State) (valid : Bool) : (s.setShaContext c valid).shaContext = c := by
  have buf : (s.setShaContext c valid).shaBufBytes = c.buf := by
    have stored := Memory.readBytes_writeBytes_same s.mem Win.shaBuf c.buf
    rwa [length] at stored
  rw [State.shaContext, buf]
  rfl

theorem State.read_setShaContext_outside (s : State) (valid : Bool) {a : Nat} (outside : ¬ Span Win.shaBuf 64 a) :
    Memory.read (s.setShaContext c valid).mem a = Memory.read s.mem a :=
  Memory.read_writeBytes_outside _ _ (by rw [length]; unfold Span at outside; omega)

/-- DATA lies above SHA_BUF. -/
theorem State.dataRead_setShaContext (s : State) (valid : Bool) (off n : Nat) :
    (s.setShaContext c valid).dataRead off n = s.dataRead off n :=
  Memory.readBytes_writeBytes_apart _ _ (.inr (by rw [length]; exact Nat.le_add_right_of_le (by decide)))

end

/-! ### SHA_INIT -/

theorem exec_shaInit (s : State) :
    exec .shaInit s = .next ((s.setShaContext freshContext true).finish .ok) := rfl

theorem freshContext_buf_length : freshContext.buf.length = 64 := zeroBytes_length 64

/-! ### The check SHA_UPDATE and SHA_FINAL start with -/

theorem State.seqCheck_fails (o : Result) (h : s.shaValid = false) :
    (if !s.shaValid then s.fail .seq else o) = s.fail .seq :=
  if_pos (by rw [h]; rfl)

theorem State.seqCheck_passes (o : Result) (h : s.shaValid = true) :
    (if !s.shaValid then s.fail .seq else o) = o :=
  if_neg (by rw [h]; decide)

/-! ### SHA_UPDATE -/

/-- The state SHA_UPDATE leaves behind, before its completion step (R132). -/
def State.hashUpdated (s : State) : State :=
  s.setShaContext (absorb s.shaContext (s.operand s.len)) s.shaValid

theorem exec_shaUpdate_of_range (valid : s.shaValid = true) (h : 16384 < s.off + s.len) :
    exec .shaUpdate s = s.fail .range :=
  (State.seqCheck_passes _ valid).trans (State.rangeCheck_fails _ h)

theorem exec_shaUpdate_of_passes (valid : s.shaValid = true) (h : s.off + s.len ≤ 16384) :
    exec .shaUpdate s = .next (s.hashUpdated.finish .ok) :=
  (State.seqCheck_passes _ valid).trans (if_neg (mt not_inRange_iff.mp h.not_gt))

/-- Absorbing leaves 64 bytes in the pending block, as it found them. -/
theorem State.absorb_shaContext_buf_length (s : State) (m : List Byte) :
    (absorb s.shaContext m).buf.length = 64 :=
  (absorb_buf_length _ _).trans s.shaBufBytes_length

theorem State.shaContext_hashUpdated (s : State) :
    s.hashUpdated.shaContext = absorb s.shaContext (s.operand s.len) :=
  s.shaContext_setShaContext (s.absorb_shaContext_buf_length _) _

theorem State.read_hashUpdated_outside (s : State) {a : Nat} (outside : ¬ Span Win.shaBuf 64 a) :
    Memory.read s.hashUpdated.mem a = Memory.read s.mem a :=
  s.read_setShaContext_outside (s.absorb_shaContext_buf_length _) _ outside

theorem State.dataRead_hashUpdated (s : State) (off n : Nat) : s.hashUpdated.dataRead off n = s.dataRead off n :=
  s.dataRead_setShaContext (s.absorb_shaContext_buf_length _) _ off n

/-! ### SHA_FINAL -/

/-- The state SHA_FINAL leaves behind where `h` are the final state words, before its completion step (R133). -/
def State.hashFinished (s : State) (h : Hash8) : State :=
  (s.setDigest h.bytes).setShaContext { h := h, cnt := 0, buf := zeroBytes 64 } false

theorem exec_shaFinal_of_passes (valid : s.shaValid = true) :
    exec .shaFinal s = .next ((s.hashFinished (finishContext s.shaContext).h).finish .ok) :=
  State.seqCheck_passes _ valid

theorem State.frame_hashFinished (s : State) (h : Hash8) :
    FrameWith { s with mem := (s.hashFinished h).mem, shaH := (s.hashFinished h).shaH, shaCnt := 0, shaValid := false }
      ((s.hashFinished h).finish .ok) :=
  State.frame_setShaContext _ _ _

theorem State.readBytes_hashFinished_digest (s : State) (h : Hash8) :
    Memory.readBytes (s.hashFinished h).mem Win.digest 32 = h.bytes :=
  (State.readBytes_setShaContext_digest _ _ _).trans (s.readBytes_setDigest h.bytes_length)

theorem State.read_hashFinished_shaBuf (s : State) (h : Hash8) {j : Nat} (hj : j < 64) :
    Memory.read (s.hashFinished h).mem (Win.shaBuf + j) = 0 :=
  State.read_setShaContext_of_zeros _ _ rfl hj

theorem State.read_hashFinished_outside (s : State) (h : Hash8) {a : Nat} (outsideDigest : ¬ Span Win.digest 32 a)
    (outsideBuf : ¬ Span Win.shaBuf 64 a) : Memory.read (s.hashFinished h).mem a = Memory.read s.mem a :=
  (State.read_setShaContext_outside (zeroBytes_length 64) _ _ outsideBuf).trans
    (s.read_setDigest_outside h.bytes_length outsideDigest)

/-! ### SHA_ONESHOT and HMAC -/

/-- A command that ends by storing a digest stores its bytes, and nothing else: the streaming context stays. -/
theorem completes_with_digest {i : Instr} {d : List Byte} (length : d.length = 32)
    (ends : exec i s = (s.setDigest d).complete) :
    ∃ t, exec i s = .next t ∧ FrameMem (Span Win.digest 32) s t ∧ t.shaContext = s.shaContext ∧
      Memory.readBytes t.mem Win.digest 32 = d :=
  ⟨_, ends, ⟨rfl, fun _ => s.read_setDigest_outside length⟩, s.shaContext_setDigest length,
    s.readBytes_setDigest length⟩

theorem exec_shaOneShot_of_inRange (h : s.off + s.len ≤ 16384) :
    exec .shaOneShot s = (s.setDigest (sha256 (s.operand s.len))).complete :=
  if_neg (mt not_inRange_iff.mp h.not_gt)

theorem exec_hmac_of_inRange (h : s.off + s.len ≤ 16384) :
    exec .hmac s =
      if s.hkeyLen.toNat > 128 then s.fail .range
      else (s.setDigest (hmacSha256 s.hkeyBytes (s.operand s.len))).complete :=
  if_neg (mt not_inRange_iff.mp h.not_gt)

theorem exec_hmac_of_range (h : 16384 < s.off + s.len ∨ 128 < s.hkeyLen.toNat) :
    exec .hmac s = s.fail .range := by
  by_cases past : 16384 < s.off + s.len
  · exact State.rangeCheck_fails _ past
  · exact (exec_hmac_of_inRange (not_lt.mp past)).trans (if_pos (h.resolve_left past))

end Sys2Proof.Machine
end

section
/-! PROOFS. The statements about the SHA-256 and HMAC commands (`44_sha.md` R131 to R136). -/

namespace Sys2Proof.Machine

open Sys2Proof

/-- Settles O42. -/
theorem shaInitStartsAContext : Obligations.ShaInitStartsAContext := by
  refine fun s => ⟨_, exec_shaInit s, s.frame_setShaContext freshContext true, rfl, fun a => ?_⟩
  split
  · next inside =>
      obtain ⟨j, rfl⟩ := Nat.exists_eq_add_of_le inside.1
      rw [State.finish_mem]
      exact s.read_setShaContext_of_zeros true rfl (Nat.lt_of_add_lt_add_left inside.2)
  · next outside =>
      rw [State.finish_mem]
      exact s.read_setShaContext_outside freshContext_buf_length true outside

/-- Settles O43. -/
theorem shaUpdateAbsorbsTheOperand : Obligations.ShaUpdateAbsorbsTheOperand := by
  refine fun s => ⟨State.seqCheck_fails _, exec_shaUpdate_of_range, fun valid hr =>
    ⟨_, exec_shaUpdate_of_passes valid hr, rfl, fun _ => s.read_hashUpdated_outside, ?counter,
      s.shaContext_hashUpdated⟩⟩
  case counter =>
    have counted := toNat_absorb_cnt s.shaContext (s.operand s.len)
    rwa [State.operand_length] at counted

/-- `s` with DATA_OFF and DATA_LEN set to an operand. -/
def State.withOperand (s : State) (off n : Nat) : State :=
  { s with dataOff := BitVec.ofNat 32 off, dataLen := BitVec.ofNat 32 n }

/-- SHA_UPDATE of any operand inside DATA absorbs it; VALID and the bytes of DATA stay. -/
theorem exec_shaUpdate_withOperand {s : State} {off n : Nat} (valid : s.shaValid = true)
    (hr : off + n ≤ 16384) :
    ∃ t, exec .shaUpdate (s.withOperand off n) = .next t ∧ t.err = .ok ∧ t.shaValid = true ∧
      t.shaContext = absorb s.shaContext (s.dataRead off n) ∧ ∀ a k, t.dataRead a k = s.dataRead a k := by
  set u := s.withOperand off n with hu
  have offset : u.off = off := Nat.mod_eq_of_lt (by omega)
  have length : u.len = n := Nat.mod_eq_of_lt (by omega)
  have context : u.hashUpdated.shaContext = absorb s.shaContext (s.dataRead off n) :=
    calc u.hashUpdated.shaContext = absorb u.shaContext (u.dataRead u.off u.len) := u.shaContext_hashUpdated
      _ = absorb s.shaContext (s.dataRead off n) := by rw [offset, length]; rfl
  exact ⟨_, exec_shaUpdate_of_passes (s := u) valid (by rwa [offset, length]), rfl, valid, context,
    u.dataRead_hashUpdated⟩

/-- Settles O44: the second piece is absorbed after the first, from bytes of DATA the first update left alone. -/
theorem shaUpdateSplitsAnywhere : Obligations.ShaUpdateSplitsAnywhere := by
  intro s off n m valid hr
  obtain ⟨v, whole, vOk, -, vContext, -⟩ := exec_shaUpdate_withOperand (off := off) (n := n + m) valid (by omega)
  obtain ⟨t, first, -, tValid, tContext, data⟩ := exec_shaUpdate_withOperand (off := off) (n := n) valid (by omega)
  obtain ⟨u, second, uOk, -, uContext, -⟩ := exec_shaUpdate_withOperand (off := off + n) (n := m) tValid hr
  have pieces : s.dataRead off (n + m) = s.dataRead off n ++ s.dataRead (off + n) m :=
    (Memory.readBytes_add s.mem (Win.data + off) n m).trans (by rw [Nat.add_assoc]; rfl)
  refine ⟨t, u, v, whole, first, second, uOk, vOk, ?_⟩
  rw [uContext, data, tContext, vContext, pieces, absorb_append]

/-- Settles O47. -/
theorem shaFinalGivesTheDigestOnce : Obligations.ShaFinalGivesTheDigestOnce := by
  refine fun s => ⟨State.seqCheck_fails _, fun valid => ?_⟩
  have ends := exec_shaFinal_of_passes valid
  generalize (finishContext s.shaContext).h = h at ends ⊢
  have frame := s.frame_hashFinished h
  have words : (s.hashFinished h).shaH = h := rfl
  have cleared : (s.hashFinished h).shaValid = false := rfl
  have digest := s.readBytes_hashFinished_digest h
  have zeros (j : Nat) : j < 64 → _ := s.read_hashFinished_shaBuf h
  have outside (a : Nat) : ¬ Span Win.digest 32 a → _ := s.read_hashFinished_outside h
  -- Only these facts about the state matter from here on.
  generalize s.hashFinished h = u at ends frame words cleared digest zeros outside
  refine ⟨u.finish .ok, ends, frame, words, fun j hj => ?bytes, zeros, outside, State.seqCheck_fails _ cleared,
    State.seqCheck_fails _ cleared⟩
  case bytes =>
    rw [State.finish_mem, ← Memory.readBytes_getD _ _ hj, digest, State.finish_shaH, words]
    exact h.bytes_getD hj

/-- Settles O48. -/
theorem shaOneShotGivesTheDigest : Obligations.ShaOneShotGivesTheDigest := fun _ =>
  ⟨State.rangeCheck_fails _, fun hr => completes_with_digest (sha256_length _) (exec_shaOneShot_of_inRange hr)⟩

/-- Settles O49: SHA_INIT leaves the operand alone, so both paths absorb it into a fresh context. -/
theorem streamingEqualsOneShot : Obligations.StreamingEqualsOneShot := by
  intro s hr
  obtain ⟨d, oneShot, ⟨dFrame, -⟩, -, dDigest⟩ :=
    completes_with_digest (sha256_length _) (exec_shaOneShot_of_inRange hr)
  have starts := exec_shaInit s
  have length := freshContext_buf_length
  have hash : (finishContext (absorb freshContext (s.operand s.len))).h.bytes = sha256 (s.operand s.len) := rfl
  -- Only the size of the first pending block matters from here on.
  generalize freshContext = c at starts length hash
  set a := (s.setShaContext c true).finish .ok
  set b := a.hashUpdated.finish .ok
  have started : a.shaContext = c := s.shaContext_setShaContext length true
  have operand : a.operand a.len = s.operand s.len := s.dataRead_setShaContext length true s.off s.len
  have updated : b.shaContext = absorb c (s.operand s.len) :=
    calc b.shaContext = absorb a.shaContext (a.operand a.len) := a.shaContext_hashUpdated
      _ = absorb c (s.operand s.len) := by rw [started, operand]
  have finishes : exec .shaFinal b = _ := exec_shaFinal_of_passes rfl
  have digest := b.readBytes_hashFinished_digest (finishContext b.shaContext).h
  generalize b.hashFinished (finishContext b.shaContext).h = u at finishes digest
  refine ⟨a, b, u.finish .ok, d, starts, exec_shaUpdate_of_passes rfl hr, finishes, oneShot, rfl,
    congrArg State.err dFrame, ?_⟩
  rw [State.finish_mem, digest, updated, hash, dDigest]

/-- Settles O50. -/
theorem hmacGivesTheConstruction : Obligations.HmacGivesTheConstruction := by
  intro s kl key msg k k0
  have keyLength : key.length = kl := Memory.readBytes_length _ _ _
  have block : hmacKeyBlock key = k0 := hmacKeyBlock_of_length keyLength
  refine ⟨exec_hmac_of_range, fun hr short => ?_⟩
  obtain ⟨t, ends, frame, context, digest⟩ := completes_with_digest (hmacSha256_length key msg)
    ((exec_hmac_of_inRange hr).trans (if_neg short.not_gt))
  refine ⟨t, ends, frame, context, ?construction, fun long => ?longKey⟩
  case construction => rw [digest, hmacSha256, block]
  case longKey => rw [digest, hmacSha256_sha256 (keyLength.symm ▸ long)]

end Sys2Proof.Machine
end

section
/-! PROOFS. NOP (`45_control.md` R137). -/

namespace Sys2Proof.Machine

open Sys2Proof

/-- NOP makes no writes before its completion step. -/
theorem exec_nop (s : State) : exec .nop s = s.complete := rfl

/-- Settles O13: all that NOP writes is what the completion step writes (`60_exceptions.md` R141). -/
theorem nopChangesNothing : Obligations.NopChangesNothing := fun s =>
  calc exec .nop s = s.complete := exec_nop s
    _ = .next (s.finish .ok) := State.complete_eq_next.mpr rfl

end Sys2Proof.Machine
end

section
/-! PROOFS. How commands end (`60_exceptions.md` R141, R142): every one completes, and a failed one has written
nothing. -/

namespace Sys2Proof.Machine

open Sys2Proof

/-- What a command leaves where it ends with an error: the completion step alone. -/
theorem exec_eq_finish_of_failed {i : Instr} {s t : State} (h : exec i s = .next t) (failed : t.err ≠ .ok) :
    t = s.finish t.err := by
  rcases exec_ends i s with ⟨e, -, he⟩ | ⟨u, -, hc⟩
  · obtain rfl : t = s.finish e := Host.Outcome.next.inj (h.symm.trans he)
    rfl
  · obtain rfl : t = u.finish .ok := Host.Outcome.next.inj (h.symm.trans hc)
    exact absurd (u.finish_err .ok) failed

/-- Settles O6: whatever a command writes, its last write is the completion step. -/
theorem everyCommandCompletes : Obligations.EveryCommandCompletes := by
  intro i s
  obtain ⟨t, ht⟩ := exec_completes i s
  obtain ⟨u, e, -, rfl⟩ := exec_eq_next ht
  exact ⟨u.finish e, ht, u.finish_busy e, u.finish_intDone e⟩

/-- Settles O7. -/
theorem failedCommandChangesNothing : Obligations.FailedCommandChangesNothing :=
  fun _ _ _ => exec_eq_finish_of_failed

end Sys2Proof.Machine
end

section
/-! PROOFS. INT_EN, INT_STAT and the interrupt output (`10_state.md` R26, R27, `60_exceptions.md` R145). -/

namespace Sys2Proof.Machine

open Sys2Proof

/-! ### The two registers bit by bit -/

/-- The layout INT_EN and INT_STAT share: two flags at bits 1:0 under 30 zero bits. -/
theorem getLsbD_twoFlags (b1 b0 : Bool) (i : Nat) :
    BitVec.getLsbD ((0 : BitVec 30) ++ BitVec.ofBool b1 ++ BitVec.ofBool b0) i =
      if i = 0 then b0 else if i = 1 then b1 else false := by
  rw [@BitVec.getLsbD_append _ 1, @BitVec.getLsbD_append _ 1]
  match i with
  | 0 => simp
  | 1 => simp
  | i + 2 => simp

/-- The mask of bits 1:0 has both flags set. -/
theorem getLsbD_three (i : Nat) : (3 : Word).getLsbD i = if i = 0 then true else if i = 1 then true else false :=
  getLsbD_twoFlags true true i

namespace State

variable (s : State)

theorem getLsbD_intEnWord (i : Nat) :
    s.intEnWord.getLsbD i = if i = 0 then s.doneEn else if i = 1 then s.ovrEn else false :=
  getLsbD_twoFlags s.ovrEn s.doneEn i

theorem getLsbD_intStatWord (i : Nat) :
    s.intStatWord.getLsbD i = if i = 0 then s.intDone else if i = 1 then s.intOvr else false :=
  getLsbD_twoFlags s.intOvr s.intDone i

theorem windowValue_intEn : s.windowValue 0x000C = s.intEnWord := rfl

theorem windowValue_intStat : s.windowValue 0x0010 = s.intStatWord := rfl

/-! ### Their writes, busy or idle (`20_memory.md` R62) -/

theorem hostWrite_intEn (v : Word) : s.hostWrite 0x000C v = s.writeIntEn v := by
  unfold State.hostWrite
  split <;> rfl

theorem hostWrite_intStat (v : Word) : s.hostWrite 0x0010 v = s.clearIntStat v := by
  unfold State.hostWrite
  split <;> rfl

theorem clearIntStat_zero : s.clearIntStat 0 = s := by
  simp [State.clearIntStat]

theorem intStatWord_clearIntStat (v : Word) : (s.clearIntStat v).intStatWord = s.intStatWord &&& ~~~v := by
  apply BitVec.eq_of_getLsbD_eq
  intro i hi
  rw [getLsbD_intStatWord, BitVec.getLsbD_and, BitVec.getLsbD_not, getLsbD_intStatWord]
  match i with
  | 0 => simp
  | 1 => simp
  | i + 2 => simp

theorem intEnWord_writeIntEn (v : Word) : (s.writeIntEn v).intEnWord = v &&& 3 := by
  apply BitVec.eq_of_getLsbD_eq
  intro i hi
  rw [getLsbD_intEnWord, BitVec.getLsbD_and, getLsbD_three]
  match i with
  | 0 => simp
  | 1 => simp
  | i + 2 => simp

theorem intStatWord_writeIntEn (v : Word) : (s.writeIntEn v).intStatWord = s.intStatWord := rfl

/-! ### The interrupt output -/

theorem irq_iff : s.irq = true ↔
    (s.intStatWord.getLsbD 0 = true ∧ s.intEnWord.getLsbD 0 = true) ∨
      (s.intStatWord.getLsbD 1 = true ∧ s.intEnWord.getLsbD 1 = true) := by
  simp only [getLsbD_intStatWord, getLsbD_intEnWord]
  simp [State.irq]

/-- A completion raises irq where DONE_EN is set (`60_exceptions.md` R141, R145). -/
theorem irq_finish {s : State} (en : s.doneEn = true) (e : ErrCode) : (s.finish e).irq = true := by
  simp [State.irq, en]

end State

/-- No command writes INT_EN, so its own completion raises irq. -/
theorem exec_raises_irq {i : Instr} {s t : State} (h : exec i s = .next t) (en : s.doneEn = true) :
    t.irq = true := by
  obtain ⟨u, e, hu, rfl⟩ := exec_eq_next h
  exact State.irq_finish (hu.sameControl.doneEn.trans en) e

theorem engineTurn_raises_irq {s t : State} (busy : s.busy = true) (h : engineTurn s = .next t)
    (en : s.doneEn = true) : t.irq = true := by
  rcases engineTurn_eq_next h with ⟨idle, -⟩ | ⟨-, i, -, hx⟩ | ⟨-, -, rfl⟩
  · exact absurd busy (Bool.eq_false_iff.mp idle)
  · exact exec_raises_irq hx en
  · exact State.irq_finish en .illegal

/-- Settles O56. -/
theorem interruptsFollowEnablesAndStatus : Obligations.InterruptsFollowEnablesAndStatus := by
  refine ⟨State.irq_iff, fun s v => ⟨?zero, ?clear, ?enable, ?maskOnly⟩, fun _ _ _ => exec_raises_irq,
    fun _ _ => engineTurn_raises_irq⟩
  case zero => rw [State.hostWrite_intStat, State.clearIntStat_zero]
  case clear => rw [State.hostWrite_intStat, State.windowValue_intStat, State.intStatWord_clearIntStat,
    State.windowValue_intStat]
  case enable => rw [State.hostWrite_intEn, State.windowValue_intEn, State.intEnWord_writeIntEn]
  case maskOnly => rw [State.hostWrite_intEn, State.windowValue_intStat, State.intStatWord_writeIntEn,
    State.windowValue_intStat]

end Sys2Proof.Machine
end

section
/-! PROOFS. The engine's turn among the environment's (`20_memory.md` R69): which command it runs, and how soon it
comes (`70_reset_and_hazards.md` R164). -/

namespace Sys2Proof.Machine

open Sys2Proof

/-! ### The engine's turn -/

theorem step_of_noInputs {s : State} (h : s.inputs = []) : step s = engineTurn s := by
  rw [step, nextStep, h]

theorem step_of_engine {s : State} {rest : List Input} (h : s.inputs = .engine :: rest) :
    step s = engineTurn { s with inputs := rest } := by
  rw [step, nextStep, h]

theorem engineTurn_of_busy {s : State} (busy : s.busy = true) : engineTurn s = runCommand s := if_pos busy

/-- The engine's turn runs a legal word in flight as its command (`60_exceptions.md` R141). -/
theorem engineTurn_of_decode {s : State} {i : Instr} (busy : s.busy = true) (legal : decode s.cmd = .ok i) :
    engineTurn s = exec i s :=
  (engineTurn_of_busy busy).trans (runCommand_of_decode legal)

/-- Settles O5, by who makes the engine's turn: the empty list of inputs, or its first item. -/
theorem stepRunsTheDecodedCommand : Obligations.StepRunsTheDecodedCommand := by
  intro s i busy legal
  refine ⟨fun empty => ?noInputs, fun rest engine => ?engine⟩
  case noInputs => rw [step_of_noInputs empty, engineTurn_of_decode busy legal]
  case engine => rw [step_of_engine engine, engineTurn_of_decode (s := { s with inputs := rest }) busy legal]

/-- After the engine's turn no command is in flight: an idle block stays idle, and every command completes. -/
theorem engineTurn_not_busy {s t : State} (h : engineTurn s = .next t) : t.busy = false := by
  rcases engineTurn_eq_next h with ⟨idle, rfl⟩ | ⟨-, i, -, hx⟩ | ⟨-, -, rfl⟩
  · exact idle
  · obtain ⟨u, e, -, rfl⟩ := exec_eq_next hx
    exact u.finish_busy e
  · exact s.finish_busy .illegal

/-! ### Host accesses leave what the environment does next -/

theorem State.busyWrite_inputs (s : State) (off : Nat) (v : Word) : (s.busyWrite off v).inputs = s.inputs := by
  unfold State.busyWrite
  cases locate off with
  | ctrl =>
      dsimp only
      split <;> rfl
  | _ => rfl

theorem State.idleWrite_inputs (s : State) (off : Nat) (v : Word) : (s.idleWrite off v).inputs = s.inputs := by
  unfold State.idleWrite
  cases locate off with
  | ctrl =>
      dsimp only
      split <;> rfl
  | _ => rfl

theorem State.hostWrite_inputs (s : State) (off : Nat) (v : Word) : (s.hostWrite off v).inputs = s.inputs := by
  unfold State.hostWrite
  split
  · exact s.busyWrite_inputs off v
  · exact s.idleWrite_inputs off v

theorem State.hostRead_inputs (s : State) (off : Nat) : (s.hostRead off).inputs = s.inputs := by
  unfold State.hostRead
  split <;> rfl

theorem HostAccess.apply_inputs (a : HostAccess) (s : State) : (a.apply s).inputs = s.inputs := by
  cases a with
  | read shape => exact s.hostRead_inputs shape.offset
  | write shape v => exact s.hostWrite_inputs shape.offset v

/-! ### How soon the engine's turn comes -/

/-- The only step with a command in flight after it is a host access, and it takes that access off the inputs. -/
theorem inputs_eq_of_step_busy {s t : State} (h : step s = .next t) (busy : t.busy = true) :
    ∃ a, s.inputs = .host a :: t.inputs := by
  rcases step_eq_next h with ⟨-, hx⟩ | ⟨rest, -, hx⟩ | ⟨a, rest, hi, -, rfl⟩ | ⟨rest, -, rfl⟩
  · exact absurd busy (Bool.eq_false_iff.mp (engineTurn_not_busy hx))
  · exact absurd busy (Bool.eq_false_iff.mp (engineTurn_not_busy hx))
  · exact ⟨a, by rw [HostAccess.apply_inputs, hi]⟩
  · exact absurd busy Bool.false_ne_true

theorem State.InputsDefined.of_cons {s t : State} {x : Input} (defined : s.InputsDefined)
    (h : s.inputs = x :: t.inputs) : t.InputsDefined :=
  fun a ha => defined a (h ▸ List.mem_cons_of_mem x ha)

theorem run_succ_of_step {M : Host.Core} {s t : M.State} (h : M.step s = .next t) (k : Nat) :
    M.run (k + 1) s = M.run k t := by
  rw [Host.Core.run, h]

/-- Along the inputs: each step ends the command, or is a host access that leaves one input fewer; after the last
input the engine has its turn. -/
theorem exists_run_not_busy {inputs : List Input} : ∀ {s : State}, s.inputs = inputs → s.InputsDefined →
    ∃ k t, k ≤ inputs.length + 1 ∧ core.run k s = .next t ∧ t.busy = false := by
  induction inputs with
  | nil =>
      intro s hi _
      obtain ⟨t, ht⟩ := engineTurn_completes s
      exact ⟨1, t, le_rfl, run_succ_of_step (M := core) ((step_of_noInputs hi).trans ht) 0, engineTurn_not_busy ht⟩
  | cons x rest ih =>
      intro s hi defined
      obtain ⟨t, ht⟩ := onlyUndefinedAccessesAreRefused.1 s defined
      cases busy : t.busy with
      | false => exact ⟨1, t, Nat.le_add_left 1 _, run_succ_of_step (M := core) ht 0, busy⟩
      | true =>
          obtain ⟨a, ha⟩ := inputs_eq_of_step_busy ht busy
          have left : t.inputs = rest := (List.cons.inj (ha.symm.trans hi)).2
          obtain ⟨k, u, hk, hu, idle⟩ := ih left (defined.of_cons ha)
          exact ⟨k + 1, u, Nat.succ_le_succ hk, (run_succ_of_step (M := core) ht k).trans hu, idle⟩

/-- Settles O59. -/
theorem commandInFlightEnds : Obligations.CommandInFlightEnds :=
  fun _ _ defined => exists_run_not_busy rfl defined

end Sys2Proof.Machine
end
